-- ==== Sys2Proof/Word.lean ====
section
/-! DEFINITION. The word types of the block (00_scope.md rule R6): a byte is 8 bits, a word is 32 bits. -/

namespace Sys2Proof

/-- A byte: "an 8-bit unsigned value 0..255" (R6). -/
abbrev Byte := BitVec 8

/-- A word: "a \"word\" in this spec is 32 bits" (R6); the width of CMD, WDATA, RDATA and of the four registers. -/
abbrev Word := BitVec 32

end Sys2Proof
end

