-- ==== Sys2Proof/Syntax.lean ====
section
/-! DEFINITION. The syntax of the block: its 13 commands (30_encoding.md rule R71, spec/opcode_table.json), the values its
ports carry (00_scope.md rule R8), and the field descriptor (30_encoding.md rules R75 to R81) as data. -/

namespace Sys2Proof

/-- One constructor per row of spec/opcode_table.json, in the table's order. A command's other operands arrive on the
ports of 10_state.md rule R31. -/
inductive Instr where
  /-- CRCCALC, OP 0x01 (R153). -/
  | crccalc
  /-- FRAME, OP 0x02; IMM8 is the header length in bytes (R72, R154). -/
  | frame (h : Byte)
  /-- DEFRAME, OP 0x03 (R155). -/
  | deframe
  /-- RXLEN, OP 0x04 (R180). -/
  | rxlen
  /-- PACK, OP 0x10 (R114). -/
  | pack
  /-- UNPACK, OP 0x11 (R122). -/
  | unpack
  /-- UNPACK_DYN, OP 0x12 (R123). -/
  | unpackDyn
  /-- SHDLC_CHECK, OP 0x20 (R201). -/
  | shdlcCheck
  /-- SHDLC_RX, OP 0x21 (R202). -/
  | shdlcRx
  /-- I2C_TX, OP 0x30 (R181). -/
  | i2cTx
  /-- I2C_RX, OP 0x31 (R182). -/
  | i2cRx
  /-- RDREG, OP 0x40; IMM8 is the register address (R72, R220). -/
  | rdreg (addr : Byte)
  /-- WRREG, OP 0x41; IMM8 is the register address (R72, R221). -/
  | wrreg (addr : Byte)
  deriving DecidableEq, Repr

mutual

/-- R8: the values carried on VIN and VOUT. FBITS(32, bits) is `f32`, FBITS(64, bits) is `f64`. The block reads LIST on
VIN only and writes ARR, STR and ABSENT on VOUT only; the host may still drive any of them on VIN (R111). -/
inductive Value where
  /-- INT(i): an integer field's value, a mathematical integer. -/
  | int (i : Int)
  /-- BOOL(b): a bool field's value. -/
  | bool (b : Bool)
  /-- FBITS(32, bits): a float field's raw bit pattern. -/
  | f32 (bits : BitVec 32)
  /-- FBITS(64, bits): a double field's raw bit pattern. -/
  | f64 (bits : BitVec 64)
  /-- BYTES(s): a string argument. -/
  | bytes (s : List Byte)
  /-- LIST(vs): an argument to be spliced (R110). -/
  | list (vs : Values)
  /-- ARR(vs): a decoded array field. -/
  | arr (vs : Values)
  /-- STR(s): a decoded string field, terminator excluded. -/
  | str (s : List Byte)
  /-- ABSENT: a variable field with zero elements found (R121). -/
  | absent
  deriving DecidableEq, Repr

/-- The list of values inside a LIST or an ARR (a type of its own so that equality of values can be derived). -/
inductive Values where
  | nil
  | cons (v : Value) (vs : Values)
  deriving DecidableEq, Repr

end

/-- The values of a LIST or ARR in order. -/
def Values.toList : Values → List Value
  | .nil => []
  | .cons v vs => v :: vs.toList

/-- A list of values as the contents of a LIST or ARR. -/
def Values.ofList : List Value → Values
  | [] => .nil
  | v :: vs => .cons v (Values.ofList vs)

/-- R75, HDR[0]: the byte order of a descriptor, 0 = BE (most significant byte first), 1 = LE. -/
inductive Order where
  | be
  | le
  deriving DecidableEq, Repr

/-- R78: the element types, ETYPE 0 to 10 in order. -/
inductive EType where
  | u8
  | i8
  | u16
  | i16
  | u32
  | i32
  | u64
  | i64
  | bool
  | f32
  | f64
  deriving DecidableEq, Repr

/-- R79: SHAPE 0 to 2 (3 is reserved). -/
inductive Shape where
  | scalar
  | array
  | string
  deriving DecidableEq, Repr

/-- R77, R81: one field of a descriptor: its type byte's ETYPE, SHAPE and FOLD, and its COUNT byte. -/
structure Field where
  etype : EType
  shape : Shape
  fold  : Bool
  count : Byte
  deriving DecidableEq, Repr

/-- R75: a descriptor as data: its byte order and its fields in order. -/
structure Descr where
  order  : Order
  fields : List Field
  deriving DecidableEq, Repr

/-- R85: what a descriptor is used for: packing a request (TX) or decoding a response (RX). -/
inductive Use where
  | tx
  | rx
  deriving DecidableEq, Repr

end Sys2Proof
end

