-- ==== Sys2Proof/Decode.lean ====
section
/-! DEFINITION. The command word (30_encoding.md rules R70 to R74): its fields, the decoder, which rejects by name, and the
encoder. -/

namespace Sys2Proof

/-- Why a word selects no command. The block answers each of them with ILLEGAL_CMD (R247). -/
inductive DecodeReject where
  /-- R73: CMD[31:16] != 0. -/
  | reservedBits
  /-- R74: OP is unassigned. -/
  | unassignedOp (op : Byte)
  /-- R73: IMM8 != 0 on a command that does not use it. -/
  | unusedImm8 (op imm : Byte)
  deriving DecidableEq, Repr

/-- R70: OP = CMD[7:0]. -/
def opField (w : Word) : Byte := w.extractLsb' 0 8

/-- R70: IMM8 = CMD[15:8]. -/
def immField (w : Word) : Byte := w.extractLsb' 8 8

/-- R70: CMD[31:16]. -/
def reservedField (w : Word) : BitVec 16 := w.extractLsb' 16 16

/-- R71: the command of an OP that has no IMM8 operand. -/
def plainOp (op : Byte) : Option Instr :=
  if op = 0x01 then some .crccalc
  else if op = 0x03 then some .deframe
  else if op = 0x04 then some .rxlen
  else if op = 0x10 then some .pack
  else if op = 0x11 then some .unpack
  else if op = 0x12 then some .unpackDyn
  else if op = 0x20 then some .shdlcCheck
  else if op = 0x21 then some .shdlcRx
  else if op = 0x30 then some .i2cTx
  else if op = 0x31 then some .i2cRx
  else none

/-- R71, R72: the command of an OP that reads IMM8. -/
def immOp (op imm : Byte) : Option Instr :=
  if op = 0x02 then some (.frame imm)
  else if op = 0x40 then some (.rdreg imm)
  else if op = 0x41 then some (.wrreg imm)
  else none

/-- R70 to R74: the command a word selects, or why it selects none. -/
def decodeWord (w : Word) : Except DecodeReject Instr :=
  if reservedField w ≠ 0 then .error .reservedBits
  else
    match immOp (opField w) (immField w) with
    | some i => .ok i
    | none =>
      match plainOp (opField w) with
      | none => .error (.unassignedOp (opField w))
      | some i => if immField w = 0 then .ok i else .error (.unusedImm8 (opField w) (immField w))

/-- R70: the word with CMD[31:16] = 0 and these IMM8 and OP. -/
def cmdWord (op imm : Byte) : Word := (0#16 ++ imm ++ op : BitVec 32)

/-- R71: the word of a command. -/
def encode : Instr → Word
  | .crccalc => cmdWord 0x01 0
  | .frame h => cmdWord 0x02 h
  | .deframe => cmdWord 0x03 0
  | .rxlen => cmdWord 0x04 0
  | .pack => cmdWord 0x10 0
  | .unpack => cmdWord 0x11 0
  | .unpackDyn => cmdWord 0x12 0
  | .shdlcCheck => cmdWord 0x20 0
  | .shdlcRx => cmdWord 0x21 0
  | .i2cTx => cmdWord 0x30 0
  | .i2cRx => cmdWord 0x31 0
  | .rdreg addr => cmdWord 0x40 addr
  | .wrreg addr => cmdWord 0x41 addr

/-- The word on the CMD port whose bits are `w`, of which the opcode table gives `nbits`: every bit above them is 0. A
command word is always 32 bits (R70, R91). -/
def tableWord (nbits w : Nat) : Word := BitVec.ofNat 32 (w % 2 ^ nbits)

/-- The command the decoder reads from a row's word, numbered as spec/opcode_table.json numbers its bits. -/
def decodeTableWord (nbits w : Nat) : Option Instr := (decodeWord (tableWord nbits w)).toOption

end Sys2Proof
end

