-- ==== Sys2Proof/Config.lean ====
section
/-! DEFINITION. What an implementation fixes and no command changes: the open parameter MAX_LEN (00_scope.md rule R5,
92_eei_decisions.md D36), the identity of the block (R2) and the checksum parameters it resets to (10_state.md R25, R33). -/

namespace Sys2Proof

/-- The parameters of one instance of the block. `maxLen` is MAX_LEN, "the longest byte sequence on any port", which the
spec leaves OPEN "with `MAX_LEN <= 65535`": 16 bits hold exactly the values it admits. It stands in State, no step writes
it, and a statement that says nothing of it holds for every value (notes/assumptions/1.md). -/
structure Config where
  maxLen : BitVec 16
  deriving DecidableEq, Repr

/-- The configuration of `State.reset`: the largest MAX_LEN the spec admits.
DESIGN CHOICE (notes/assumptions/1.md): the spec leaves the value open. -/
def Config.atReset : Config := { maxLen := 65535 }

/-- R2: the identity string of the block, edition 1. -/
def Config.identity : String := "sh40a-crc8-codec"

/-- R2: the options of the block, "all three present". -/
def Config.options : List String := ["FRAMER", "CODEC", "SHDLC"]

/-- R25: POLY after reset (the spec marks it as from general knowledge: notes/assumptions/4.md). -/
def Config.resetPoly : Byte := 0x31

/-- R25: INIT after reset (notes/assumptions/4.md). -/
def Config.resetInit : Byte := 0xFF

/-- R25: XOROUT after reset (notes/assumptions/4.md). -/
def Config.resetXorOut : Byte := 0x00

/-- R25: WIDTH, hardwired to 8. -/
def Config.crcWidth : Byte := 8

end Sys2Proof
end

