-- ==== Sys2Proof/Machine/State.lean ====
section
/-! DEFINITION. The state of the block as plain data (10_state.md), the errors a command can end with (60_exceptions.md
rule R241), and the two ways a step can stop. -/

namespace Sys2Proof.Machine

/-- R85: the causes of a USAGE error, subcodes 1 to 8 in order. -/
inductive UsageCause where
  /-- subcode 1: more than one string field. -/
  | manyStrings
  /-- subcode 2: length. -/
  | length
  /-- subcode 3: reserved bit set. -/
  | reservedBit
  /-- subcode 4: reserved ETYPE or SHAPE. -/
  | reservedCode
  /-- subcode 5: bad COUNT. -/
  | badCount
  /-- subcode 6: STRING with ETYPE != U8. -/
  | stringElement
  /-- subcode 7: illegal FOLD. -/
  | illegalFold
  /-- subcode 8: missing or bad command field. -/
  | commandField
  deriving DecidableEq, Repr

/-- R241, R27: the errors of the block with the values each carries. An error is a result of its command: the step that
raises one answers a next state (R240, R255). -/
inductive BlockError where
  /-- R242: a group's checksum byte differs; `pos` is the DIN offset of that byte. -/
  | checksum (received expected : Byte) (pos : Nat)
  /-- R243: the echoed address differs from the address sent. -/
  | mismatchAddr (received expected : Byte)
  /-- R244: the echoed command differs from the command sent. -/
  | mismatchCmd (received expected : Byte)
  /-- R245: the status byte's bits [6:0] are not 0. -/
  | device (status : Byte)
  /-- R246: the descriptor fails `validate`; `field` is 0xFF when the cause is of no field. -/
  | usage (cause : UsageCause) (field : Byte)
  /-- R247: the command word is illegal. -/
  | illegalCmd (cmd : Word)
  /-- R248: the register address is unmapped. -/
  | illegalReg (addr : Byte) (write : Bool)
  /-- R249: the bytes cannot be grouped in pairs after the header. -/
  | frameLen (len h : Nat)
  /-- R250: the bytes are not whole 3-byte groups. -/
  | deframeLen (len : Nat)
  /-- R251: the bytes run short, or do not have the fixed length. -/
  | decodeLen (pos : Nat) (field : Byte)
  /-- R252: a nested list, a count mismatch (`count`) or a kind mismatch. -/
  | packArg (index : Nat) (count : Bool)
  /-- R253: a command id (`cmd`) or an integer argument out of range. -/
  | packRange (index : Nat) (cmd : Bool)
  /-- R254: an odd response length that cannot be scaled by 3/2. -/
  | rxlenOdd (len : Nat)
  deriving DecidableEq, Repr

/-- R31: the operand ports, as the host sets them for one command. "Ports not written are empty (`[]`, absent, empty
list, 0)" (R92), the defaults below. CMDID is a natural number here (notes/assumptions/6.md). -/
structure Ports where
  cmd : Word := 0
  din : List Byte := []
  desc : List Byte := []
  vin : List Value := []
  cmdid : Nat := 0
  sa : Byte := 0
  sc : Byte := 0
  ea : Byte := 0
  ec : Byte := 0
  es : Byte := 0
  wdata : Word := 0
  deriving DecidableEq, Repr

/-- What the host does to the block, one thing at a time (R20, R62, R270). -/
inductive HostEvent where
  /-- The host issues the command on these operand ports (R31). -/
  | issue (p : Ports)
  /-- The platform asserts reset (R270, R271). -/
  | reset
  deriving DecidableEq, Repr

/-- The state of the block and of the ports it meets the host at. -/
structure State where
  /-- CTRL, register address 0x00 (R24). -/
  ctrl : Word
  /-- CRC_CFG, register address 0x01 (R25). -/
  crcCfg : Word
  /-- STATUS, register address 0x02 (R26). -/
  status : Word
  /-- ERR_INFO, register address 0x03 (R27). -/
  errInfo : Word
  /-- DOUT, a result port (R32). -/
  dout : List Byte
  /-- VOUT, a result port (R32); `none` is NONE (R8). -/
  vout : Option (List Value)
  /-- RDATA, a result port (R32). -/
  rdata : Word
  /-- The operand ports of the command being executed, as the host set them (R31). -/
  ports : Ports
  /-- The model's own: what the host does next, in issue order (R22, R62; notes/assumptions/2.md). -/
  hostQueue : List HostEvent
  /-- The instance's parameters (R5). -/
  config : Config
  /-- The model's own: the errors raised since reset, newest first, which no command reads (92_eei_decisions.md D29;
  notes/assumptions/3.md). -/
  errLog : List BlockError
  deriving DecidableEq, Repr

/-- The block has no trap and stops nowhere with a fault: an error of a command is a result that the next state shows
(R240), so no step raises a fault and this type has no constructor. -/
inductive Fault where
  deriving DecidableEq, Repr

/-- The reasons a step is refused. -/
inductive Refusal where
  /-- Raised by `exec` for a command that has no meaning yet; safe (nothing is claimed of it). No arm answers it. -/
  | notModelled (mnemonic : String)
  /-- Raised by `step` for a command with a byte-sequence port longer than MAX_LEN: "the model refuses it (no step)"
  (R31, 93_implementation_defined.md U10); safe. -/
  | portTooLong
  deriving DecidableEq, Repr

/-- R33, R270: the machine right after reset. The registers and result ports have the spec's values. The ports are not
written (R92) and nothing has been issued. MAX_LEN's value is a DESIGN CHOICE (notes/assumptions/1.md). -/
def State.reset : State where
  ctrl := 0x00000000
  crcCfg := 0x0800FF31
  status := 0x00000000
  errInfo := 0x00000000
  dout := []
  vout := none
  rdata := 0
  ports := {}
  hostQueue := []
  config := Config.atReset
  errLog := []

end Sys2Proof.Machine
end

