-- ==== Sys2Proof/Machine/Operands.lean ====
section
/-! DEFINITION. The operand forms of the commands: byte sequences and byte order (20_memory.md rules R51, R54), element
types, the descriptor and its validation (30_encoding.md rules R75 to R90), and the argument list (40_field_codec.md rules
R110 to R113). -/

namespace Sys2Proof.Machine

/-! ## Integers and bytes -/

/-- R9, `zext_N(v)`: `v mod 2^N`, as a non-negative integer. -/
def zext (n : Nat) (v : Int) : Nat := (v % 2 ^ n).toNat

/-- R9, `sext_N(v)`: the integer whose N-bit two's-complement pattern is `v mod 2^N`. -/
def sext (n : Nat) (v : Int) : Int :=
  if v % 2 ^ n ≥ 2 ^ (n - 1) then v % 2 ^ n - 2 ^ n else v % 2 ^ n

/-- R54, `enc(BE, n, u)` of an unsigned `u`: most significant byte first. -/
def bytesBE : Nat → Nat → List Byte
  | 0, _ => []
  | n + 1, u => BitVec.ofNat 8 (u >>> (8 * n)) :: bytesBE n u

/-- R54, `enc(LE, n, u)` of an unsigned `u`: least significant byte first. -/
def bytesLE : Nat → Nat → List Byte
  | 0, _ => []
  | n + 1, u => BitVec.ofNat 8 u :: bytesLE n (u >>> 8)

/-- R54, `enc(o, n, v)`. -/
def enc (o : Order) (n : Nat) (v : Int) : List Byte :=
  match o with
  | .be => bytesBE n (zext (8 * n) v)
  | .le => bytesLE n (zext (8 * n) v)

/-- R54, `dec_u(BE, bs)`: the first byte weighs most. -/
def natBE : List Byte → Nat
  | [] => 0
  | b :: bs => (b.toNat <<< (8 * bs.length)) + natBE bs

/-- R54, `dec_u(LE, bs)`: the first byte weighs least. -/
def natLE : List Byte → Nat
  | [] => 0
  | b :: bs => b.toNat + (natLE bs <<< 8)

/-- R54, `dec_u(o, bs)`. -/
def decU (o : Order) (bs : List Byte) : Nat :=
  match o with
  | .be => natBE bs
  | .le => natLE bs

/-- R54, `dec_s(o, bs)`. -/
def decS (o : Order) (bs : List Byte) : Int := sext (8 * bs.length) (decU o bs)

/-- R9, R51, `MemRead(addr, n)`: the bytes `[addr..addr+n)`; only called where `addr + n` is at most the length. -/
def memRead (bs : List Byte) (addr n : Nat) : List Byte := (bs.drop addr).take n

/-! ## Element types and shapes -/

/-- R78, the size column. -/
def etypeSize : EType → Nat
  | .u8 => 1
  | .i8 => 1
  | .u16 => 2
  | .i16 => 2
  | .u32 => 4
  | .i32 => 4
  | .u64 => 8
  | .i64 => 8
  | .bool => 1
  | .f32 => 4
  | .f64 => 8

/-- R78, `isint(e)`: ETYPE 0..7. -/
def isInt : EType → Bool
  | .bool => false
  | .f32 => false
  | .f64 => false
  | _ => true

/-- R78, `issigned(e)`: ETYPE 1, 3, 5, 7. -/
def isSigned : EType → Bool
  | .i8 => true
  | .i16 => true
  | .i32 => true
  | .i64 => true
  | _ => false

/-- R78: the ETYPE code. -/
def etypeCode : EType → BitVec 4
  | .u8 => 0
  | .i8 => 1
  | .u16 => 2
  | .i16 => 3
  | .u32 => 4
  | .i32 => 5
  | .u64 => 6
  | .i64 => 7
  | .bool => 8
  | .f32 => 9
  | .f64 => 10

/-- R78: the element type of an ETYPE code; 11..15 are reserved. -/
def etypeOf (code : BitVec 4) : Option EType :=
  [EType.u8, .i8, .u16, .i16, .u32, .i32, .u64, .i64, .bool, .f32, .f64][code.toNat]?

/-- R77: the SHAPE code. -/
def shapeCode : Shape → BitVec 2
  | .scalar => 0
  | .array => 1
  | .string => 2

/-- R77: the shape of a SHAPE code; 3 is reserved. -/
def shapeOf (code : BitVec 2) : Option Shape := [Shape.scalar, .array, .string][code.toNat]?

/-! ## The descriptor -/

/-- R77, R93: the type byte `T = ETYPE | SHAPE << 4 | FOLD << 6`. -/
def typeByte (f : Field) : Byte :=
  (0#1 ++ BitVec.ofBool f.fold ++ shapeCode f.shape ++ etypeCode f.etype : BitVec 8)

/-- R75: HDR[0] of a byte order. -/
def orderByte : Order → Byte
  | .be => 0
  | .le => 1

/-- R75: the byte order of HDR[0]. -/
def orderOf (hdr : Byte) : Order := if hdr.getLsbD 0 then .le else .be

/-- R75, R93: the bytes `<HDR NF T0 C0 T1 C1 ...>` of a descriptor. -/
def assemble (d : Descr) : List Byte :=
  orderByte d.order :: BitVec.ofNat 8 d.fields.length :: d.fields.flatMap fun f => [typeByte f, f.count]

/-- R246: the USAGE error of field `i`. -/
def fieldUsage (cause : UsageCause) (i : Nat) : BlockError := .usage cause (BitVec.ofNat 8 i)

/-- R85: the checks of one field whose type and COUNT codes are not reserved, in order. `strings` is the number of STRING
fields before it. -/
def checkField (use : Use) (i strings : Nat) (f : Field) : Except BlockError Field :=
  if (f.shape = .scalar ∧ f.count ≠ 0) ∨ (f.shape ≠ .scalar ∧ f.count = 0) then .error (fieldUsage .badCount i)
  else if f.shape = .string ∧ f.etype ≠ .u8 then .error (fieldUsage .stringElement i)
  else if f.fold = true ∧ (f.shape ≠ .array ∨ isInt f.etype = false ∨ use = .tx) then .error (fieldUsage .illegalFold i)
  else if use = .tx ∧ i = 0 ∧ ¬ (f.shape = .scalar ∧ (f.etype = .u8 ∨ f.etype = .u16)) then
    .error (fieldUsage .commandField i)
  else if f.shape = .string ∧ strings + 1 > 1 then .error (fieldUsage .manyStrings i)
  else .ok f

/-- R77, R85: field `i` of type byte `t` and COUNT byte `c`. -/
def parseField (use : Use) (i strings : Nat) (t c : Byte) : Except BlockError Field :=
  if t.getLsbD 7 then .error (fieldUsage .reservedBit i)
  else
    match etypeOf (t.extractLsb' 0 4), shapeOf (t.extractLsb' 4 2) with
    | some e, some sh => checkField use i strings ⟨e, sh, t.getLsbD 6, c⟩
    | _, _ => .error (fieldUsage .reservedCode i)

/-- How many STRING fields there are once field `f` is counted (R85). -/
def countString (strings : Nat) (f : Field) : Nat := if f.shape = .string then strings + 1 else strings

/-- R85: the fields from index `i` on, in order; the first that fails gives the error. -/
def parseFields (use : Use) : Nat → Nat → List Byte → Except BlockError (List Field)
  | i, strings, t :: c :: rest =>
    match parseField use i strings t c with
    | .error e => .error e
    | .ok f =>
      match parseFields use (i + 1) (countString strings f) rest with
      | .error e => .error e
      | .ok fs => .ok (f :: fs)
  | _, _, _ => .ok []

/-- R85, `validate(D, use)`: the descriptor the bytes hold, or the first USAGE error its checks find. -/
def validate (use : Use) (bytes : List Byte) : Except BlockError Descr :=
  match bytes with
  | hdr :: nf :: rest =>
    if rest.length ≠ 2 * nf.toNat then .error (.usage .length 0xFF)
    else if hdr.extractLsb' 1 7 ≠ 0 then .error (.usage .reservedBit 0xFF)
    else if use = .tx ∧ nf = 0 then .error (.usage .commandField 0xFF)
    else
      match parseFields use 0 0 rest with
      | .error e => .error e
      | .ok fs => .ok ⟨orderOf hdr, fs⟩
  | _ => .error (.usage .length 0xFF)

/-- R83: what one field adds to `rx_length`. -/
def fieldMaxBytes (f : Field) : Nat :=
  match f.shape with
  | .scalar => etypeSize f.etype
  | .array => f.count.toNat * etypeSize f.etype
  | .string => f.count.toNat

/-- R83, `rx_length(D)`. -/
def rxLength (d : Descr) : Nat := (d.fields.map fieldMaxBytes).sum

/-- R84, `var(D)`: some field is an ARRAY or a STRING. -/
def isVar (d : Descr) : Bool := d.fields.any fun f => f.shape != .scalar

/-- R90, `w = size(ETYPE_0)`: 1 or 2 for a request descriptor, which has a field 0 (R85, R86). -/
def cmdWidth (d : Descr) : Nat :=
  match d.fields with
  | f :: _ => etypeSize f.etype
  | [] => 0

/-! ## The argument list -/

/-- R82: an argument slot. -/
inductive Slot where
  /-- SLOT(e). -/
  | elem (e : EType)
  /-- STRSLOT(C). -/
  | str (c : Nat)
  deriving DecidableEq, Repr

/-- R82: the slots of one field. -/
def fieldSlots (f : Field) : List Slot :=
  match f.shape with
  | .scalar => [.elem f.etype]
  | .array => List.replicate f.count.toNat (.elem f.etype)
  | .string => [.str f.count.toNat]

/-- R82, `slots(D)`: the slots of the fields after the command field. -/
def slots (d : Descr) : List Slot := d.fields.tail.flatMap fieldSlots

/-- R91: the size of a slot in a packed request. -/
def slotSize : Slot → Nat
  | .elem e => etypeSize e
  | .str c => c

/-- R110: the values of a LIST argument, the first of which gets index `k`; a LIST among them is an error. -/
def spliceList (k : Nat) : List Value → Except BlockError (List Value)
  | [] => .ok []
  | .list _ :: _ => .error (.packArg k false)
  | x :: xs =>
    match spliceList (k + 1) xs with
    | .error e => .error e
    | .ok a => .ok (x :: a)

/-- R110, `flatten(VIN)` from index `k` on: each LIST is spliced in, one level deep. -/
def flattenFrom (k : Nat) : List Value → Except BlockError (List Value)
  | [] => .ok []
  | .list xs :: vs =>
    match spliceList k xs.toList with
    | .error e => .error e
    | .ok a =>
      match flattenFrom (k + a.length) vs with
      | .error e => .error e
      | .ok b => .ok (a ++ b)
  | v :: vs =>
    match flattenFrom (k + 1) vs with
    | .error e => .error e
    | .ok b => .ok (v :: b)

/-- R110, `flatten(VIN)`. -/
def flatten (vin : List Value) : Except BlockError (List Value) := flattenFrom 0 vin

/-- R112, `fits(e, i)`. -/
def fits (e : EType) (i : Int) : Bool :=
  if isSigned e then decide (-(2 : Int) ^ (8 * etypeSize e - 1) ≤ i ∧ i < 2 ^ (8 * etypeSize e - 1))
  else decide (0 ≤ i ∧ i < 2 ^ (8 * etypeSize e))

/-- R111: the value has the kind the slot accepts. -/
def kindOk : Slot → Value → Bool
  | .elem .bool, .bool _ => true
  | .elem .f32, .f32 _ => true
  | .elem .f64, .f64 _ => true
  | .elem e, .int _ => isInt e
  | .str _, .bytes _ => true
  | _, _ => false

/-- R112: an INT argument of an integer slot is in the range of its type. -/
def rangeOk : Slot → Value → Bool
  | .elem e, .int i => !isInt e || fits e i
  | _, _ => true

/-- R114: the check of argument `k`: its kind, then its range. -/
def checkSlot (k : Nat) (s : Slot) (v : Value) : Option BlockError :=
  if kindOk s v = false then some (.packArg k false)
  else if rangeOk s v = false then some (.packRange k false)
  else none

/-- R114: the checks of the arguments from index `k` on, slot by slot; the first error found. -/
def checkSlots : Nat → List Slot → List Value → Option BlockError
  | k, s :: ss, v :: vs =>
    match checkSlot k s v with
    | some e => some e
    | none => checkSlots (k + 1) ss vs
  | _, _, _ => none

/-- R113, `encslot(o, slot, value)` for a value that passed the checks of its slot. -/
def encSlot (o : Order) : Slot → Value → List Byte
  | .elem e, .int i => enc o (etypeSize e) i
  | .elem _, .bool b => [if b then 0x01 else 0x00]
  | .elem _, .f32 x => enc o 4 x.toNat
  | .elem _, .f64 x => enc o 8 x.toNat
  | .str c, .bytes s => if s.length > c then s.take c else s ++ List.replicate (c - s.length) 0
  | _, _ => []

/-- R113: the slot sets TRUNC: its string argument is longer than the field. -/
def truncates : Slot → Value → Bool
  | .str c, .bytes s => decide (s.length > c)
  | _, _ => false

end Sys2Proof.Machine
end

