-- ==== Sys2Proof/Machine/Flags.lean ====
section
/-! DEFINITION. The STATUS register's flags and error codes, and the layout of ERR_INFO (10_state.md rules R26 to R28,
60_exceptions.md rule R241). -/

namespace Sys2Proof.Machine

/-- R28: the STATUS flags a command sets; "flags are results, not conditions". -/
structure Flags where
  trunc : Bool := false
  nodata : Bool := false
  devstate : Bool := false
  dyn : Bool := false
  deriving DecidableEq, Repr

/-- R26: STATUS with this ERR code and these flags: TRUNC is bit 8, NODATA bit 9, DEVSTATE bit 10, DYN bit 11, and
[31:12] reads 0. -/
def statusWord (err : Byte) (f : Flags) : Word :=
  (0#20 ++ BitVec.ofBool f.dyn ++ BitVec.ofBool f.devstate ++ BitVec.ofBool f.nodata ++ BitVec.ofBool f.trunc ++ err :
    BitVec 32)

/-- R26: STATUS.ERR. -/
def statusErr (w : Word) : Byte := w.extractLsb' 0 8

/-- R26: STATUS.TRUNC. -/
def statusTrunc (w : Word) : Bool := w.getLsbD 8

/-- R26: STATUS.NODATA. -/
def statusNodata (w : Word) : Bool := w.getLsbD 9

/-- R26: STATUS.DEVSTATE. -/
def statusDevstate (w : Word) : Bool := w.getLsbD 10

/-- R26: STATUS.DYN. -/
def statusDyn (w : Word) : Bool := w.getLsbD 11

/-- R85: the subcode of a USAGE cause. -/
def UsageCause.code : UsageCause → Byte
  | .manyStrings => 1
  | .length => 2
  | .reservedBit => 3
  | .reservedCode => 4
  | .badCount => 5
  | .stringElement => 6
  | .illegalFold => 7
  | .commandField => 8

/-- R241: the value of STATUS.ERR. -/
def BlockError.code : BlockError → Byte
  | .checksum _ _ _ => 0x01
  | .mismatchAddr _ _ => 0x02
  | .mismatchCmd _ _ => 0x03
  | .device _ => 0x04
  | .usage _ _ => 0x05
  | .illegalCmd _ => 0x10
  | .illegalReg _ _ => 0x11
  | .frameLen _ _ => 0x12
  | .deframeLen _ => 0x13
  | .decodeLen _ _ => 0x14
  | .packArg _ _ => 0x15
  | .packRange _ _ => 0x16
  | .rxlenOdd _ => 0x17

/-- R241: every code an error can have; "codes 0x06..0x0F and 0x18..0xFF are never written". -/
def errorCodes : List Byte :=
  [0x01, 0x02, 0x03, 0x04, 0x05, 0x10, 0x11, 0x12, 0x13, 0x14, 0x15, 0x16, 0x17]

/-- R27: the layout of ERR_INFO. Positions and lengths are taken mod 2^16 (D50). -/
def BlockError.info : BlockError → Word
  | .checksum received expected pos => (BitVec.ofNat 16 pos ++ expected ++ received : BitVec 32)
  | .mismatchAddr received expected => (0#16 ++ expected ++ received : BitVec 32)
  | .mismatchCmd received expected => (0#16 ++ expected ++ received : BitVec 32)
  | .device status => (0#24 ++ status : BitVec 32)
  | .usage cause field => (0#16 ++ field ++ cause.code : BitVec 32)
  | .illegalCmd cmd => cmd
  | .illegalReg addr write => (0#23 ++ BitVec.ofBool write ++ addr : BitVec 32)
  | .frameLen len h => (0#8 ++ BitVec.ofNat 8 h ++ BitVec.ofNat 16 len : BitVec 32)
  | .deframeLen len => (0#16 ++ BitVec.ofNat 16 len : BitVec 32)
  | .decodeLen pos field => (0#8 ++ field ++ BitVec.ofNat 16 pos : BitVec 32)
  | .packArg index count => (0#15 ++ BitVec.ofBool count ++ BitVec.ofNat 16 index : BitVec 32)
  | .packRange index cmd => (0#15 ++ BitVec.ofBool cmd ++ BitVec.ofNat 16 index : BitVec 32)
  | .rxlenOdd len => (0#16 ++ BitVec.ofNat 16 len : BitVec 32)

/-- R255: the flags an error leaves: DEVSTATE is ES[7] for DEVICE, every other flag is 0. -/
def BlockError.flags : BlockError → Flags
  | .device status => { devstate := status.getLsbD 7 }
  | _ => {}

end Sys2Proof.Machine
end

