-- ==== Sys2Proof/Machine/Ops.lean ====
section
/-! DEFINITION. The shared operations on the state: the end of a command, in success and in error; the registers; reset;
and how the block takes the host's next command. The block has no memory but its four registers and its ports
(20_memory.md rule R50), and no trap, handler or return from one (60_exceptions.md rules R240, R257): raising an error is
`State.raise`, and the next command "runs normally whatever STATUS holds". -/

namespace Sys2Proof.Machine

/-! ## The end of a command -/

/-- What a command that succeeds delivers: the result ports it produces (the others keep the defaults of R32) and the
flags it sets. -/
structure Output where
  dout : List Byte := []
  vout : Option (List Value) := none
  rdata : Word := 0
  flags : Flags := {}
  deriving DecidableEq, Repr

/-- R26, R27, R32, R255: a command other than RDREG and WRREG succeeds: the result ports, "STATUS = the flags set | 0x00
and ERR_INFO = 0". -/
def State.succeed (s : State) (o : Output) : State :=
  { s with status := statusWord 0 o.flags, errInfo := 0, dout := o.dout, vout := o.vout, rdata := o.rdata }

/-- R255: what `raise E` writes, "and nothing else". The log of errors is the model's own (notes/assumptions/3.md). -/
def State.raise (s : State) (e : BlockError) : State :=
  { s with
    status := statusWord e.code e.flags
    errInfo := e.info
    dout := match e with
      | .checksum _ _ _ => s.ports.din
      | _ => []
    vout := none
    rdata := 0
    errLog := e :: s.errLog }

/-- R240: the command ends with what its pseudocode came to: an error at its first `raise`, else its results. -/
def State.complete (s : State) (r : Except BlockError Output) : State :=
  match r with
  | .error e => s.raise e
  | .ok o => s.succeed o

/-- R32, R220, R221: RDREG and WRREG succeed: the result ports are written, and "STATUS and ERR_INFO are not written on
success". -/
def State.respond (s : State) (rdata : Word) : State := { s with dout := [], vout := none, rdata := rdata }

/-! ## Registers -/

/-- R23: the four registers. -/
inductive Reg where
  | ctrl
  | crcCfg
  | status
  | errInfo
  deriving DecidableEq, Repr

/-- R23, R60: the register at an address; 0x04..0xFF are unmapped. -/
def regAt (addr : Byte) : Option Reg :=
  if addr = 0x00 then some .ctrl
  else if addr = 0x01 then some .crcCfg
  else if addr = 0x02 then some .status
  else if addr = 0x03 then some .errInfo
  else none

/-- R9, `x[A]`: the value of a register. -/
def State.readReg (s : State) : Reg → Word
  | .ctrl => s.ctrl
  | .crcCfg => s.crcCfg
  | .status => s.status
  | .errInfo => s.errInfo

/-- R24, R25, R221: the host writes a register: CTRL keeps bit 0 of the value, CRC_CFG keeps bits [23:0] and WIDTH stays
8, and STATUS and ERR_INFO are read-only. -/
def State.writeReg (s : State) (r : Reg) (v : Word) : State :=
  match r with
  | .ctrl => { s with ctrl := v &&& 0x00000001 }
  | .crcCfg => { s with crcCfg := 0x08000000 ||| (v &&& 0x00FFFFFF) }
  | .status => s
  | .errInfo => s

/-- R24: CTRL.CRC_EN. -/
def State.crcEn (s : State) : Bool := s.ctrl.getLsbD 0

/-- R25: CRC_CFG.POLY. -/
def State.poly (s : State) : Byte := s.crcCfg.extractLsb' 0 8

/-- R25: CRC_CFG.INIT. -/
def State.init (s : State) : Byte := s.crcCfg.extractLsb' 8 8

/-- R25: CRC_CFG.XOROUT. -/
def State.xorOut (s : State) : Byte := s.crcCfg.extractLsb' 16 8

/-! ## Reset and the host -/

/-- R270, R271: reset is asserted: every register and result port takes its value of R33. What the host drives and does
next, and the instance's parameters, are not the block's to change. -/
def State.applyReset (s : State) : State :=
  { State.reset with ports := s.ports, hostQueue := s.hostQueue, config := s.config }

/-- R31: no byte-sequence port is longer than MAX_LEN (notes/assumptions/1.md). -/
def State.portsFit (s : State) : Bool :=
  decide (s.ports.din.length ≤ s.config.maxLen.toNat ∧ s.ports.desc.length ≤ s.config.maxLen.toNat)

/-- What the block meets at the start of a step. -/
inductive Arrival where
  /-- The host does nothing more: the block stays idle (R271). -/
  | idle
  /-- Reset is asserted on this state. -/
  | reset (s : State)
  /-- A command is issued; the state holds its operand ports. -/
  | command (s : State)
  deriving DecidableEq, Repr

/-- R20, R31, R62: the host's next action, in issue order; a command's operands are on the ports when it starts. -/
def State.arrival (s : State) : Arrival :=
  match s.hostQueue with
  | [] => .idle
  | .reset :: rest => .reset { s with hostQueue := rest }
  | .issue p :: rest => .command { s with ports := p, hostQueue := rest }

/-- The operand ports of the host's next command; the present ports where it issues none. -/
def State.nextPorts (s : State) : Ports :=
  match s.hostQueue with
  | .issue p :: _ => p
  | _ => s.ports

/-- The host issues next the command whose word is `w`, with the operand ports of the command it would have issued. -/
def State.issueWord (s : State) (w : Word) : State :=
  { s with hostQueue := .issue { s.nextPorts with cmd := w } :: s.hostQueue.tail }

end Sys2Proof.Machine
end

