-- ==== Sys2Proof/Machine/Codec.lean ====
section
/-! DEFINITION. The field codec (40_field_codec.md): packing, fixed and dynamic decoding, and the commands PACK, UNPACK and
UNPACK_DYN. -/

namespace Sys2Proof.Machine

/-! ## Packing -/

/-- R114: a packed request: its bytes, the width of its command id, and whether a string was truncated. -/
structure Packed where
  bytes : List Byte
  width : Nat
  trunc : Bool
  deriving DecidableEq, Repr

/-- R113: the encodings of the arguments, slot by slot. -/
def encSlots (o : Order) (ss : List Slot) (vs : List Value) : List Byte := (List.zipWith (encSlot o) ss vs).flatten

/-- R113: some slot truncates its argument. -/
def anyTruncates (ss : List Slot) (vs : List Value) : Bool := (List.zipWith truncates ss vs).any id

/-- R114: a descriptor, a command id and an argument list packed, the checks in the order of the pseudocode. -/
def packArgs (d : Descr) (cmdid : Nat) (vin : List Value) : Except BlockError Packed :=
  if cmdid ≥ 2 ^ (8 * cmdWidth d) then .error (.packRange 0 true)
  else
    match flatten vin with
    | .error e => .error e
    | .ok args =>
      if args.length ≠ (slots d).length then .error (.packArg (min args.length (slots d).length) true)
      else
        match checkSlots 0 (slots d) args with
        | some e => .error e
        | none =>
          .ok { bytes := enc d.order (cmdWidth d) cmdid ++ encSlots d.order (slots d) args
                width := cmdWidth d
                trunc := anyTruncates (slots d) args }

/-- R114: the packed request of the ports DESC, CMDID and VIN. -/
def packRequest (p : Ports) : Except BlockError Packed :=
  match validate .tx p.desc with
  | .error e => .error e
  | .ok d => packArgs d p.cmdid p.vin

/-- R114: the body of PACK. -/
def packBody (p : Ports) : Except BlockError Output :=
  match packRequest p with
  | .error e => .error e
  | .ok r => .ok { dout := r.bytes, rdata := BitVec.ofNat 32 r.width, flags := { trunc := r.trunc } }

/-! ## Decoding -/

/-- R116, `decscalar(o, e, bs)` with `len(bs) = size(e)`. -/
def decScalar (o : Order) (e : EType) (bs : List Byte) : Value :=
  match e with
  | .bool => .bool (decide (bs.headD 0 ≠ 0))
  | .f32 => .f32 (BitVec.ofNat 32 (decU o bs))
  | .f64 => .f64 (BitVec.ofNat 64 (decU o bs))
  | e => if isSigned e then .int (decS o bs) else .int (decU o bs)

/-- R115: the fields decoded from cursor `c` on, each at its fixed width. -/
def fixedFields (o : Order) (bs : List Byte) : Nat → List Field → List Value
  | _, [] => []
  | c, f :: fs =>
    decScalar o f.etype (memRead bs c (etypeSize f.etype)) :: fixedFields o bs (c + etypeSize f.etype) fs

/-- R115, `fixed_decode(D, bytes)`. -/
def fixedDecode (d : Descr) (bs : List Byte) : Except BlockError (List Value) :=
  if bs.length ≠ rxLength d then .error (.decodeLen bs.length 0xFF)
  else .ok (fixedFields d.order bs 0 d.fields)

/-- R118, `scan_array`: at most `count` more elements from cursor `c` on, while whole elements remain; the elements and the
cursor after them. -/
def scanArray (o : Order) (e : EType) (bs : List Byte) : Nat → Nat → List Value × Nat
  | 0, c => ([], c)
  | count + 1, c =>
    if c + etypeSize e ≤ bs.length then
      (decScalar o e (memRead bs c (etypeSize e)) :: (scanArray o e bs count (c + etypeSize e)).1,
        (scanArray o e bs count (c + etypeSize e)).2)
    else ([], c)

/-- R119, `scan_string`: at most `count` more bytes from cursor `c` on; a zero byte is consumed and ends the string. -/
def scanString (bs : List Byte) : Nat → Nat → List Byte × Nat
  | 0, c => ([], c)
  | count + 1, c =>
    match bs[c]? with
    | none => ([], c)
    | some b =>
      if b = 0 then ([], c + 1)
      else (b :: (scanString bs count (c + 1)).1, (scanString bs count (c + 1)).2)

/-- The integers of a list of INT values; FOLD is legal on integer arrays only (R80), whose elements are all INT (R116). -/
def intsOf (els : List Value) : List Int :=
  els.filterMap fun v => match v with
    | .int i => some i
    | _ => none

/-- R120: elements of `w` bits concatenated by their raw bit patterns, the most significant element first. -/
def foldBits (w : Nat) : List Int → Nat
  | [] => 0
  | i :: is => (zext w i <<< (w * is.length)) + foldBits w is

/-- R118, R120, R121, `arrvalue(els, fold, e)`. -/
def arrValue (els : List Value) (fold : Bool) (e : EType) : Value :=
  if els = [] then .absent
  else if fold then .arr (.cons (.int (foldBits (8 * etypeSize e) (intsOf els))) .nil)
  else .arr (Values.ofList els)

/-- R119, R121, `strvalue(bs)`. -/
def strValue (bs : List Byte) : Value := if bs = [] then .absent else .str bs

/-- R117: field `i` decoded at cursor `c`: its value and the cursor after it, or DECODE_LEN where a SCALAR runs short. -/
def dynField (o : Order) (bs : List Byte) (i c : Nat) (f : Field) : Except BlockError (Value × Nat) :=
  match f.shape with
  | .scalar =>
    if c + etypeSize f.etype > bs.length then .error (.decodeLen c (BitVec.ofNat 8 i))
    else .ok (decScalar o f.etype (memRead bs c (etypeSize f.etype)), c + etypeSize f.etype)
  | .array =>
    .ok (arrValue (scanArray o f.etype bs f.count.toNat c).1 f.fold f.etype, (scanArray o f.etype bs f.count.toNat c).2)
  | .string => .ok (strValue (scanString bs f.count.toNat c).1, (scanString bs f.count.toNat c).2)

/-- R117: the walk over the fields from index `i` on, with the read cursor at `c`. -/
def dynFields (o : Order) (bs : List Byte) : Nat → Nat → List Field → Except BlockError (List Value)
  | _, _, [] => .ok []
  | i, c, f :: fs =>
    match dynField o bs i c f with
    | .error e => .error e
    | .ok (v, c') =>
      match dynFields o bs (i + 1) c' fs with
      | .error e => .error e
      | .ok vs => .ok (v :: vs)

/-- R117, `dyn_decode(D, bytes)`: the cursor starts at 0 and what is left after the last field is ignored. -/
def dynDecode (d : Descr) (bs : List Byte) : Except BlockError (List Value) := dynFields d.order bs 0 0 d.fields

/-- R122, R182: the values of the bytes by the decoder the descriptor asks for, and whether it was the dynamic one. -/
def decodeAs (dyn : Bool) (d : Descr) (bs : List Byte) : Except BlockError Output :=
  match (if dyn then dynDecode d bs else fixedDecode d bs) with
  | .error e => .error e
  | .ok vs => .ok { vout := some vs, flags := { dyn := dyn } }

/-- R122: the body of UNPACK. -/
def unpackBody (p : Ports) : Except BlockError Output :=
  if p.desc.length = 0 then .ok {}
  else
    match validate .rx p.desc with
    | .error e => .error e
    | .ok d => decodeAs (isVar d) d p.din

/-- R123: the body of UNPACK_DYN. -/
def unpackDynBody (p : Ports) : Except BlockError Output :=
  if p.desc.length = 0 then .ok {}
  else
    match validate .rx p.desc with
    | .error e => .error e
    | .ok d => decodeAs true d p.din

/-- PACK (R114). -/
def execPack (s : State) : Host.Outcome State Fault Refusal := .next (s.complete (packBody s.ports))

/-- UNPACK (R122). -/
def execUnpack (s : State) : Host.Outcome State Fault Refusal := .next (s.complete (unpackBody s.ports))

/-- UNPACK_DYN (R123). -/
def execUnpackDyn (s : State) : Host.Outcome State Fault Refusal := .next (s.complete (unpackDynBody s.ports))

end Sys2Proof.Machine
end

