-- ==== Sys2Proof/Machine/Crc.lean ====
section
/-! DEFINITION. The CRC framer (41_crc_framer.md): the checksum function, framing and deframing, and the commands CRCCALC,
FRAME and DEFRAME. Framing takes the checksum function as an argument: "every rule of this file holds for any such
function" (R150). -/

namespace Sys2Proof.Machine

/-- R151: `n` times the inner step of `crc8` on the 8-bit register `r`. -/
def crcShift (poly : Byte) : Nat → Byte → Byte
  | 0, r => r
  | n + 1, r => crcShift poly n (if r.getLsbD 7 then (r <<< 1) ^^^ poly else r <<< 1)

/-- R151: the register after one message byte. -/
def crcByte (poly r b : Byte) : Byte := crcShift poly 8 (r ^^^ b)

/-- R151, `crc8(P, I, X)(b0, b1)`. -/
def crc8 (poly init xorOut b0 b1 : Byte) : Byte := crcByte poly (crcByte poly init b0) b1 ^^^ xorOut

/-- R151: the block's `crc_fn`, "read from CRC_CFG when the command runs". -/
def State.crcFn (s : State) : Byte → Byte → Byte := crc8 s.poly s.init s.xorOut

/-- R152: the checksum function the framer uses: CTRL.CRC_EN = 0 means "absence of a checksum function". -/
def State.checksumFn (s : State) : Option (Byte → Byte → Byte) := if s.crcEn then some s.crcFn else none

/-- R154: each pair of the payload followed by its checksum byte. -/
def frameGroups (crc : Byte → Byte → Byte) : List Byte → List Byte
  | a :: b :: rest => a :: b :: crc a b :: frameGroups crc rest
  | _ => []

/-- R154, R181: the bytes framed after a header of `h` bytes; with no checksum function they pass through as they are. -/
def frameBytes (fn : Option (Byte → Byte → Byte)) (h : Nat) (bs : List Byte) : Except BlockError (List Byte) :=
  match fn with
  | none => .ok bs
  | some crc =>
    if h > bs.length then .error (.frameLen bs.length h)
    else if (bs.length - h) % 2 ≠ 0 then .error (.frameLen bs.length h)
    else .ok (bs.take h ++ frameGroups crc (bs.drop h))

/-- R155: the groups from offset `pos` on: the data bytes, or the first group whose checksum byte differs. -/
def deframeGroups (crc : Byte → Byte → Byte) : Nat → List Byte → Except BlockError (List Byte)
  | pos, a :: b :: c :: rest =>
    if c ≠ crc a b then .error (.checksum c (crc a b) (pos + 2))
    else
      match deframeGroups crc (pos + 3) rest with
      | .error e => .error e
      | .ok out => .ok (a :: b :: out)
  | _, _ => .ok []

/-- R155: what deframing leaves: the bytes, and whether it is the "no data" result. -/
def deframeBytes (fn : Option (Byte → Byte → Byte)) (bs : List Byte) : Except BlockError (List Byte × Bool) :=
  match fn with
  | none => .ok (bs, false)
  | some crc =>
    if bs.length % 3 ≠ 0 then .error (.deframeLen bs.length)
    else
      match deframeGroups crc 0 bs with
      | .error e => .error e
      | .ok out => .ok (out, out.isEmpty)

/-- R153: the body of CRCCALC. -/
def crccalcBody (crc : Byte → Byte → Byte) (din : List Byte) : Except BlockError Output :=
  match din with
  | [b0, b1] => .ok { rdata := (crc b0 b1).setWidth 32 }
  | _ => .error (.frameLen din.length 0)

/-- R154: the body of FRAME. -/
def frameBody (fn : Option (Byte → Byte → Byte)) (h : Byte) (din : List Byte) : Except BlockError Output :=
  match frameBytes fn h.toNat din with
  | .error e => .error e
  | .ok out => .ok { dout := out }

/-- R155: the body of DEFRAME. -/
def deframeBody (fn : Option (Byte → Byte → Byte)) (din : List Byte) : Except BlockError Output :=
  match deframeBytes fn din with
  | .error e => .error e
  | .ok (out, nodata) => .ok { dout := out, flags := { nodata := nodata } }

/-- CRCCALC (R153): it "does not read CRC_EN" (R152). -/
def execCrccalc (s : State) : Host.Outcome State Fault Refusal :=
  .next (s.complete (crccalcBody s.crcFn s.ports.din))

/-- FRAME (R154). -/
def execFrame (h : Byte) (s : State) : Host.Outcome State Fault Refusal :=
  .next (s.complete (frameBody s.checksumFn h s.ports.din))

/-- DEFRAME (R155). -/
def execDeframe (s : State) : Host.Outcome State Fault Refusal :=
  .next (s.complete (deframeBody s.checksumFn s.ports.din))

end Sys2Proof.Machine
end

