-- ==== Sys2Proof/Machine/Registers.lean ====
section
/-! DEFINITION. Register access (44_register_access.md): the commands RDREG and WRREG. "No privilege is needed for
either". -/

namespace Sys2Proof.Machine

/-- RDREG (R220): RDATA is the register; STATUS and ERR_INFO are written only for an unmapped address. -/
def execRdreg (addr : Byte) (s : State) : Host.Outcome State Fault Refusal :=
  match regAt addr with
  | none => .next (s.raise (.illegalReg addr false))
  | some r => .next (s.respond (s.readReg r))

/-- WRREG (R221): WDATA is written as the register takes it; STATUS and ERR_INFO are written only for an unmapped
address. -/
def execWrreg (addr : Byte) (s : State) : Host.Outcome State Fault Refusal :=
  match regAt addr with
  | none => .next (s.raise (.illegalReg addr true))
  | some r => .next ((s.writeReg r s.ports.wdata).respond 0)

end Sys2Proof.Machine
end

