-- ==== Sys2Proof/Machine/Transfer.lean ====
section
/-! DEFINITION. The I2C transfer paths (42_transfer_paths.md): the commands RXLEN, I2C_TX and I2C_RX. -/

namespace Sys2Proof.Machine

/-- R180: the body of RXLEN. -/
def rxlenBody (crcEn : Bool) (p : Ports) : Except BlockError Output :=
  if p.desc.length = 0 then .ok {}
  else
    match validate .rx p.desc with
    | .error e => .error e
    | .ok d =>
      if crcEn = false then .ok { rdata := BitVec.ofNat 32 (rxLength d) }
      else if rxLength d % 2 ≠ 0 then .error (.rxlenOdd (rxLength d))
      else .ok { rdata := BitVec.ofNat 32 (rxLength d * 3 / 2) }

/-- R181: the body of I2C_TX: the packed request, framed after its command bytes. -/
def i2cTxBody (fn : Option (Byte → Byte → Byte)) (p : Ports) : Except BlockError Output :=
  match packRequest p with
  | .error e => .error e
  | .ok r =>
    match frameBytes fn r.width r.bytes with
    | .error e => .error e
    | .ok out => .ok { dout := out, rdata := BitVec.ofNat 32 r.width, flags := { trunc := r.trunc } }

/-- R182: "descriptor errors first": the response descriptor, if one is present. -/
def optDescr (desc : List Byte) : Except BlockError (Option Descr) :=
  if desc.length = 0 then .ok none
  else
    match validate .rx desc with
    | .error e => .error e
    | .ok d => .ok (some d)

/-- R182: the deframed bytes decoded, if a descriptor was supplied and there is data. -/
def i2cDecode (d : Option Descr) (data : List Byte) (nodata : Bool) : Except BlockError Output :=
  match d with
  | none => .ok { dout := data, flags := { nodata := nodata } }
  | some d =>
    if nodata then .ok { dout := data, flags := { nodata := nodata } }
    else
      match decodeAs (isVar d) d data with
      | .error e => .error e
      | .ok o => .ok { o with dout := data }

/-- R182: the body of I2C_RX. -/
def i2cRxBody (fn : Option (Byte → Byte → Byte)) (p : Ports) : Except BlockError Output :=
  match optDescr p.desc with
  | .error e => .error e
  | .ok d =>
    match deframeBytes fn p.din with
    | .error e => .error e
    | .ok (data, nodata) => i2cDecode d data nodata

/-- RXLEN (R180). -/
def execRxlen (s : State) : Host.Outcome State Fault Refusal := .next (s.complete (rxlenBody s.crcEn s.ports))

/-- I2C_TX (R181). -/
def execI2cTx (s : State) : Host.Outcome State Fault Refusal := .next (s.complete (i2cTxBody s.checksumFn s.ports))

/-- I2C_RX (R182). -/
def execI2cRx (s : State) : Host.Outcome State Fault Refusal := .next (s.complete (i2cRxBody s.checksumFn s.ports))

end Sys2Proof.Machine
end

