-- ==== Sys2Proof/Machine/Shdlc.lean ====
section
/-! DEFINITION. SHDLC response validation (43_shdlc.md): the commands SHDLC_CHECK and SHDLC_RX. -/

namespace Sys2Proof.Machine

/-- R201: the checks of the SHDLC tuple, "in the order the source lists them: address, command, status". -/
def shdlcError (p : Ports) : Option BlockError :=
  if p.ea ≠ p.sa then some (.mismatchAddr p.ea p.sa)
  else if p.ec ≠ p.sc then some (.mismatchCmd p.ec p.sc)
  else if p.es.extractLsb' 0 7 ≠ 0 then some (.device p.es)
  else none

/-- R201: the body of SHDLC_CHECK; DEVSTATE is ES[7]. -/
def shdlcCheckBody (p : Ports) : Except BlockError Output :=
  match shdlcError p with
  | some e => .error e
  | none => .ok { dout := p.din, flags := { devstate := p.es.getLsbD 7 } }

/-- R202: the body of SHDLC_RX: validation, the checks, then always the dynamic decoder. -/
def shdlcRxBody (p : Ports) : Except BlockError Output :=
  match optDescr p.desc with
  | .error e => .error e
  | .ok d =>
    match shdlcError p with
    | some e => .error e
    | none =>
      match d with
      | none => .ok { dout := p.din, flags := { devstate := p.es.getLsbD 7 } }
      | some d =>
        match dynDecode d p.din with
        | .error e => .error e
        | .ok vs =>
          .ok { dout := p.din, vout := some vs, flags := { devstate := p.es.getLsbD 7, dyn := true } }

/-- SHDLC_CHECK (R201). -/
def execShdlcCheck (s : State) : Host.Outcome State Fault Refusal := .next (s.complete (shdlcCheckBody s.ports))

/-- SHDLC_RX (R202). -/
def execShdlcRx (s : State) : Host.Outcome State Fault Refusal := .next (s.complete (shdlcRxBody s.ports))

end Sys2Proof.Machine
end

