-- ==== Sys2Proof/Machine/Dispatch.lean ====
section
/-! DEFINITION. The meaning of every command, one arm per constructor of Instr, in the order of spec/opcode_table.json. -/

namespace Sys2Proof.Machine

def exec (i : Instr) (s : State) : Host.Outcome State Fault Refusal :=
  match i with
  | .crccalc => Sys2Proof.Machine.execCrccalc s
  | .frame h => Sys2Proof.Machine.execFrame h s
  | .deframe => Sys2Proof.Machine.execDeframe s
  | .rxlen => Sys2Proof.Machine.execRxlen s
  | .pack => Sys2Proof.Machine.execPack s
  | .unpack => Sys2Proof.Machine.execUnpack s
  | .unpackDyn => Sys2Proof.Machine.execUnpackDyn s
  | .shdlcCheck => Sys2Proof.Machine.execShdlcCheck s
  | .shdlcRx => Sys2Proof.Machine.execShdlcRx s
  | .i2cTx => Sys2Proof.Machine.execI2cTx s
  | .i2cRx => Sys2Proof.Machine.execI2cRx s
  | .rdreg addr => Sys2Proof.Machine.execRdreg addr s
  | .wrreg addr => Sys2Proof.Machine.execWrreg addr s

end Sys2Proof.Machine
end

