-- ==== Sys2Proof/Machine/Fetch.lean ====
section
/-! DEFINITION. One command from its word to its end: the refusal of over-long ports, decoding, and ILLEGAL_CMD
(10_state.md R20, R31; 30_encoding.md R73, R74; 60_exceptions.md R247). -/

namespace Sys2Proof.Machine

/-- The command on the ports runs: an over-long port is refused before anything else, and a word that selects no command
raises ILLEGAL_CMD (R73, R74, R247). -/
def runCommand (s : State) : Host.Outcome State Fault Refusal :=
  if s.portsFit = false then .refused .portTooLong
  else
    match decodeWord s.ports.cmd with
    | .error _ => .next (s.raise (.illegalCmd s.ports.cmd))
    | .ok i => exec i s

/-- One step of the machine: the host's next action takes place; with none, the block stays idle (R271). -/
def runNext (s : State) : Host.Outcome State Fault Refusal :=
  match s.arrival with
  | .idle => .next s
  | .reset s' => .next s'.applyReset
  | .command s' => runCommand s'

end Sys2Proof.Machine
end

