-- ==== Sys2Proof/Machine/Step.lean ====
section
/-! DEFINITION. The step of the machine, and the placing of a command word where the step takes its next command. -/

namespace Sys2Proof.Machine

/-- R20, R22, R62: one step is the host's next action, whole: a command from the state it finds to the state it leaves, or a
reset. -/
def step (s : State) : Host.Outcome State Fault Refusal := runNext s

/-- The state in which the host issues next the command whose word has the bits `w` (`nbits` of them from the opcode
table), with the operands of the command it would have issued next, or of the ports where it issues none. -/
def State.withFetchWord (s : State) (nbits w : Nat) : State := s.issueWord (tableWord nbits w)

end Sys2Proof.Machine
end

