-- ==== Sys2Proof/Machine/Assembler.lean ====
section
/-! DEFINITION. The assembler notation (30_encoding.md rules R92 to R95): how commands, descriptors and values are written,
and the commands that the pseudo-instructions stand for. No step reads this file. -/

namespace Sys2Proof.Machine

/-! ## Pseudo-instructions -/

/-- R95: the pseudo-instructions. -/
inductive Pseudo where
  /-- CRCON. -/
  | crcOn
  /-- CRCOFF. -/
  | crcOff
  /-- CRCSET poly, init, xorout. -/
  | crcSet (poly init xorOut : Byte)
  /-- RDSTATUS. -/
  | rdStatus
  /-- RDERR. -/
  | rdErr
  deriving DecidableEq, Repr

/-- R23: the address of a register. -/
def regAddr : Reg → Byte
  | .ctrl => 0x00
  | .crcCfg => 0x01
  | .status => 0x02
  | .errInfo => 0x03

/-- R95: the command a pseudo-instruction expands to, as the host drives it. -/
def expandPseudo : Pseudo → Ports
  | .crcOn => { cmd := encode (.wrreg (regAddr .ctrl)), wdata := 0x00000001 }
  | .crcOff => { cmd := encode (.wrreg (regAddr .ctrl)), wdata := 0x00000000 }
  | .crcSet poly init xorOut =>
    { cmd := encode (.wrreg (regAddr .crcCfg)),
      wdata := (xorOut.setWidth 32 <<< 16) ||| (init.setWidth 32 <<< 8) ||| poly.setWidth 32 }
  | .rdStatus => { cmd := encode (.rdreg (regAddr .status)) }
  | .rdErr => { cmd := encode (.rdreg (regAddr .errInfo)) }

/-! ## Notation -/

/-- One hexadecimal digit, as the spec writes them (R6). -/
def hexDigit (n : Nat) : String :=
  (["0", "1", "2", "3", "4", "5", "6", "7", "8", "9", "A", "B", "C", "D", "E", "F"][n]?).getD ""

/-- `digits` hexadecimal digits of a number. -/
def hexDigits : Nat → Nat → String
  | 0, _ => ""
  | digits + 1, n => hexDigits digits (n / 16) ++ hexDigit (n % 16)

/-- R6: a byte sequence, `<89 03 E8>`. -/
def bytesText (bs : List Byte) : String := "<" ++ " ".intercalate (bs.map fun b => hexDigits 2 b.toNat) ++ ">"

/-- R94: a number in decimal. -/
def intText (i : Int) : String := if i < 0 then "-" ++ Nat.repr i.natAbs else Nat.repr i.natAbs

mutual

/-- R94: a value. -/
def valueText : Value → String
  | .int i => "INT " ++ intText i
  | .bool b => if b then "BOOL true" else "BOOL false"
  | .f32 bits => "F32 0x" ++ hexDigits 8 bits.toNat
  | .f64 bits => "F64 0x" ++ hexDigits 16 bits.toNat
  | .bytes s => "BYTES" ++ bytesText s
  | .list vs => "LIST(" ++ ", ".intercalate (valueTexts vs) ++ ")"
  | .arr vs => "ARR(" ++ ", ".intercalate (valueTexts vs) ++ ")"
  | .str s => "STR" ++ bytesText s
  | .absent => "ABSENT"

/-- R94: the values inside a LIST or ARR. -/
def valueTexts : Values → List String
  | .nil => []
  | .cons v vs => valueText v :: valueTexts vs

end

/-- R94: a value list, `(v0, v1, ...)`. -/
def valueListText (vs : List Value) : String := "(" ++ ", ".intercalate (vs.map valueText) ++ ")"

/-- R94: VOUT. -/
def voutText : Option (List Value) → String
  | none => "NONE"
  | some vs => valueListText vs

/-- R78: the name of an element type. -/
def etypeName : EType → String
  | .u8 => "U8"
  | .i8 => "I8"
  | .u16 => "U16"
  | .i16 => "I16"
  | .u32 => "U32"
  | .i32 => "I32"
  | .u64 => "U64"
  | .i64 => "I64"
  | .bool => "BOOL"
  | .f32 => "F32"
  | .f64 => "F64"

/-- R93: a field: `ETYPE`, `ARR(ETYPE, COUNT)`, `ARR(ETYPE, COUNT, FOLD)` or `STR(COUNT)`. -/
def fieldText (f : Field) : String :=
  match f.shape with
  | .scalar => etypeName f.etype
  | .array =>
    "ARR(" ++ etypeName f.etype ++ ", " ++ Nat.repr f.count.toNat ++ (if f.fold then ", FOLD" else "") ++ ")"
  | .string => "STR(" ++ Nat.repr f.count.toNat ++ ")"

/-- R93: a descriptor, ORDER and fields between braces (characters 123 and 125). -/
def descrText (d : Descr) : String :=
  String.singleton (Char.ofNat 123) ++ (match d.order with | .be => "BE:" | .le => "LE:") ++
    (if d.fields.isEmpty then "" else " ") ++ ", ".intercalate (d.fields.map fieldText) ++
    String.singleton (Char.ofNat 125)

/-- R92: the name of a register. -/
def regName : Reg → String
  | .ctrl => "CTRL"
  | .crcCfg => "CRC_CFG"
  | .status => "STATUS"
  | .errInfo => "ERR_INFO"

/-- R92: a register address: its name, or the number where it is unmapped. -/
def regText (addr : Byte) : String :=
  match regAt addr with
  | some r => regName r
  | none => "0x" ++ hexDigits 2 addr.toNat

/-- R92: `MNEMONIC [imm]`. -/
def instrText : Instr → String
  | .crccalc => "CRCCALC"
  | .frame h => "FRAME " ++ Nat.repr h.toNat
  | .deframe => "DEFRAME"
  | .rxlen => "RXLEN"
  | .pack => "PACK"
  | .unpack => "UNPACK"
  | .unpackDyn => "UNPACK_DYN"
  | .shdlcCheck => "SHDLC_CHECK"
  | .shdlcRx => "SHDLC_RX"
  | .i2cTx => "I2C_TX"
  | .i2cRx => "I2C_RX"
  | .rdreg addr => "RDREG " ++ regText addr
  | .wrreg addr => "WRREG " ++ regText addr

/-- R92: one `port=value` where the port is written at all. -/
def portText (name : String) (written : Bool) (value : String) : List String :=
  if written then [name ++ "=" ++ value] else []

/-- R92, R93: the descriptor port: its notation where the bytes are a legal descriptor for some use, else the bytes. -/
def descText (desc : List Byte) : String :=
  match validate .rx desc, validate .tx desc with
  | .ok d, _ => descrText d
  | _, .ok d => descrText d
  | _, _ => bytesText desc

/-- R92: the ports that are written, in the order of the rule's list of port names. -/
def portTexts (p : Ports) : List String :=
  portText "din" (p.din ≠ []) (bytesText p.din) ++ portText "desc" (p.desc ≠ []) (descText p.desc) ++
  portText "vin" (p.vin ≠ []) (valueListText p.vin) ++
  portText "cmdid" (p.cmdid ≠ 0) (Nat.repr p.cmdid) ++
  portText "sa" (p.sa ≠ 0) ("0x" ++ hexDigits 2 p.sa.toNat) ++ portText "sc" (p.sc ≠ 0) ("0x" ++ hexDigits 2 p.sc.toNat) ++
  portText "ea" (p.ea ≠ 0) ("0x" ++ hexDigits 2 p.ea.toNat) ++ portText "ec" (p.ec ≠ 0) ("0x" ++ hexDigits 2 p.ec.toNat) ++
  portText "es" (p.es ≠ 0) ("0x" ++ hexDigits 2 p.es.toNat) ++
  portText "wdata" (p.wdata ≠ 0) ("0x" ++ hexDigits 8 p.wdata.toNat)

/-- R92: a command as written, `MNEMONIC [imm] [; port=value, ...]`. -/
def commandText (i : Instr) (p : Ports) : String :=
  instrText i ++ (if (portTexts p).isEmpty then "" else " ; " ++ ", ".intercalate (portTexts p))

end Sys2Proof.Machine
end

