-- ==== Sys2Proof/Safety.lean ====
section
/-! DEFINITION. What statements about runs speak of: the register invariant, the domain of the ports, and runs. -/

namespace Sys2Proof.Machine

/-- R24: CTRL[31:1] reads 0. -/
def State.ctrlOk (s : State) : Bool := s.ctrl.extractLsb' 1 31 == 0

/-- R25: WIDTH is hardwired to 8. -/
def State.widthOk (s : State) : Bool := s.crcCfg.extractLsb' 24 8 == 8

/-- R26: STATUS[31:12] reads 0. -/
def State.statusReservedOk (s : State) : Bool := s.status.extractLsb' 12 20 == 0

/-- R241: STATUS.ERR is 0 or one of the listed codes. -/
def State.errCodeOk (s : State) : Bool := statusErr s.status == 0 || errorCodes.contains (statusErr s.status)

/-- R27: on success ERR_INFO is 0. -/
def State.infoOk (s : State) : Bool := statusErr s.status != 0 || s.errInfo == 0

/-- R255: on an error TRUNC, NODATA and DYN are 0, and DEVSTATE is 0 but for DEVICE. -/
def State.errFlagsOk (s : State) : Bool :=
  statusErr s.status == 0 ||
    (!statusTrunc s.status && !statusNodata s.status && !statusDyn s.status &&
      (!statusDevstate s.status || statusErr s.status == 0x04))

/-- The sticky log's newest entry is the error that STATUS and ERR_INFO show (notes/assumptions/3.md). -/
def State.logOk (s : State) : Bool :=
  statusErr s.status == 0 ||
    match s.errLog with
    | [] => false
    | e :: _ => e.code == statusErr s.status && e.info == s.errInfo

/-- What holds of the registers of the block after reset and after every step. -/
abbrev State.Inv (s : State) : Prop :=
  s.ctrlOk = true ∧ s.widthOk = true ∧ s.statusReservedOk = true ∧ s.errCodeOk = true ∧ s.infoOk = true ∧
    s.errFlagsOk = true ∧ s.logOk = true

/-- R31: the widths of the ports that the model holds wider (notes/assumptions/6.md): CMDID is 16 bits. -/
def Ports.inDomain (p : Ports) : Bool := p.cmdid < 65536

/-- R220, R221: the commands that leave STATUS and ERR_INFO alone when they succeed. -/
def isRegAccess : Instr → Bool
  | .rdreg _ => true
  | .wrreg _ => true
  | _ => false

/-- R241, the column "raised by": the error codes each command can end with. ILLEGAL_CMD is of words that are no
command. -/
def raisableCodes : Instr → List Byte
  | .crccalc => [0x12]
  | .frame _ => [0x12]
  | .deframe => [0x01, 0x13]
  | .rxlen => [0x05, 0x17]
  | .pack => [0x05, 0x15, 0x16]
  | .unpack => [0x05, 0x14]
  | .unpackDyn => [0x05, 0x14]
  | .shdlcCheck => [0x02, 0x03, 0x04]
  | .shdlcRx => [0x05, 0x02, 0x03, 0x04, 0x14]
  | .i2cTx => [0x05, 0x15, 0x16, 0x12]
  | .i2cRx => [0x05, 0x13, 0x01, 0x14]
  | .rdreg _ => [0x11]
  | .wrreg _ => [0x11]

/-- R110: a LIST value. -/
def isListValue : Value → Bool
  | .list _ => true
  | _ => false

/-- R110: what an argument contributes to the flattened arguments. -/
def spliced : Value → List Value
  | .list xs => xs.toList
  | v => [v]

/-- R110: an argument that holds no LIST inside a LIST. -/
def noNestedList (v : Value) : Bool := !isListValue v || (spliced v).all fun x => !isListValue x

/-- R82, R111, R112: an argument that its slot accepts. -/
abbrev slotAccepts (sl : Slot) (v : Value) : Prop := kindOk sl v = true ∧ rangeOk sl v = true

/-- R113: some string argument is longer than its field. -/
def hasLongString (ss : List Slot) (args : List Value) : Prop :=
  ∃ (k c : Nat) (b : List Byte), ss[k]? = some (.str c) ∧ args[k]? = some (.bytes b) ∧ c < b.length

/-- R155: the checksum byte of group `k` is right. -/
abbrev groupGood (crc : Byte → Byte → Byte) (bs : List Byte) (k : Nat) : Prop :=
  bs.getD (3 * k + 2) 0 = crc (bs.getD (3 * k) 0) (bs.getD (3 * k + 1) 0)

/-- R77: the SHAPE code of field `i`, read from the descriptor's bytes. -/
def rawShape (bytes : List Byte) (i : Nat) : Nat := (bytes.getD (2 + 2 * i) 0).toNat / 16 % 4

/-- R85: the subcode of the first check that field `i` of the descriptor's bytes fails, in the rule's order. -/
def fieldSubcode (use : Use) (bytes : List Byte) (i : Nat) : Option Nat :=
  let t := (bytes.getD (2 + 2 * i) 0).toNat
  let c := (bytes.getD (3 + 2 * i) 0).toNat
  if 128 ≤ t then some 3
  else if 10 < t % 16 ∨ rawShape bytes i = 3 then some 4
  else if (rawShape bytes i = 0 ∧ c ≠ 0) ∨ (rawShape bytes i ≠ 0 ∧ c = 0) then some 5
  else if rawShape bytes i = 2 ∧ t % 16 ≠ 0 then some 6
  else if t / 64 % 2 = 1 ∧ (rawShape bytes i ≠ 1 ∨ 7 < t % 16 ∨ use = .tx) then some 7
  else if use = .tx ∧ i = 0 ∧ ¬ (rawShape bytes i = 0 ∧ (t % 16 = 0 ∨ t % 16 = 2)) then some 8
  else if rawShape bytes i = 2 ∧ ∃ j ∈ List.range i, rawShape bytes j = 2 then some 1
  else none

/-- R85: the subcode and FIELD of the first check that the descriptor's bytes fail. -/
def firstUsage (use : Use) (bytes : List Byte) : Option (Nat × Nat) :=
  if bytes.length < 2 ∨ bytes.length ≠ 2 + 2 * (bytes.getD 1 0).toNat then some (2, 0xFF)
  else if (bytes.getD 0 0).toNat / 2 ≠ 0 then some (3, 0xFF)
  else if use = .tx ∧ bytes.getD 1 0 = 0 then some (8, 0xFF)
  else (List.range (bytes.getD 1 0).toNat).findSome? fun i => (fieldSubcode use bytes i).map fun sub => (sub, i)

/-- The product of two polynomials over GF(2), a polynomial's coefficients being the bits of a vector. -/
def polyMul (q : BitVec 16) (g : BitVec 24) : BitVec 24 :=
  (List.range 16).foldl (fun acc k => if q.getLsbD k then acc ^^^ (g <<< k) else acc) 0

/-- R117: what field `i` of the walk does when its read cursor stands at `cur i`: its value, and the cursor after it. -/
abbrev cursorStep (o : Order) (bs : List Byte) (cur : Nat → Nat) (i : Nat) (f : Field) (v : Value) : Prop :=
  (f.shape = .scalar → cur i + etypeSize f.etype ≤ bs.length ∧
    v = decScalar o f.etype (memRead bs (cur i) (etypeSize f.etype)) ∧ cur (i + 1) = cur i + etypeSize f.etype) ∧
  (f.shape = .array →
    v = arrValue (scanArray o f.etype bs f.count.toNat (cur i)).1 f.fold f.etype ∧
      cur (i + 1) = (scanArray o f.etype bs f.count.toNat (cur i)).2) ∧
  (f.shape = .string →
    v = strValue (scanString bs f.count.toNat (cur i)).1 ∧ cur (i + 1) = (scanString bs f.count.toNat (cur i)).2)

/-- The state with these bytes on the DIN port. -/
def State.withDin (s : State) (din : List Byte) : State := { s with ports := { s.ports with din := din } }

end Sys2Proof.Machine
end

