-- ==== Sys2Proof/WellFormed.lean ====
section
/-! DEFINITION. What a well-formed command word and a well-formed descriptor are, said apart from the decoder and from
`validate`, so that statements can hold the two against each other. Every term of `Instr` is well formed: an operand of
type `Byte` cannot leave the range 0..255 of IMM8 (30_encoding.md rule R72). -/

namespace Sys2Proof

/-- R71: one row of the opcode map: OP, whether IMM8 is an operand, and the mnemonic. -/
structure OpcodeRow where
  op : Byte
  usesImm8 : Bool
  mnemonic : String
  deriving DecidableEq, Repr

/-- R71: the opcode map, row by row. -/
def opcodeMap : List OpcodeRow :=
  [ ⟨0x01, false, "CRCCALC"⟩, ⟨0x02, true, "FRAME"⟩, ⟨0x03, false, "DEFRAME"⟩, ⟨0x04, false, "RXLEN"⟩,
    ⟨0x10, false, "PACK"⟩, ⟨0x11, false, "UNPACK"⟩, ⟨0x12, false, "UNPACK_DYN"⟩,
    ⟨0x20, false, "SHDLC_CHECK"⟩, ⟨0x21, false, "SHDLC_RX"⟩,
    ⟨0x30, false, "I2C_TX"⟩, ⟨0x31, false, "I2C_RX"⟩,
    ⟨0x40, true, "RDREG"⟩, ⟨0x41, true, "WRREG"⟩ ]

/-- R73: CMD[31:16], which must be 0. -/
def reservedClear (w : Word) : Bool := w.toNat / 65536 == 0

/-- R74: OP is in the opcode map. -/
def opAssigned (w : Word) : Bool := opcodeMap.any fun r => r.op.toNat == w.toNat % 256

/-- R73: IMM8 is 0 unless the row of OP uses it. -/
def imm8Allowed (w : Word) : Bool :=
  (w.toNat / 256 % 256 == 0) || opcodeMap.any fun r => r.op.toNat == w.toNat % 256 && r.usesImm8

/-- R73, R74: the command words that select a command; "every word either selects one command of rule R71 or is
illegal". -/
def legalCmd (w : Word) : Bool := reservedClear w && opAssigned w && imm8Allowed w

/-- R78, `isint`: the integer element types, ETYPE 0 to 7. -/
def integerTypes : List EType := [.u8, .i8, .u16, .i16, .u32, .i32, .u64, .i64]

/-- R81: COUNT is 0 for a SCALAR and 1..255 for an ARRAY or a STRING. -/
def Field.countOk (f : Field) : Bool := (f.shape == .scalar) == (f.count == 0)

/-- R78, R85: the elements of a STRING are U8. -/
def Field.stringOk (f : Field) : Bool := f.shape != .string || f.etype == .u8

/-- R80: FOLD only on an integer ARRAY of a response descriptor. -/
def Field.foldOk (use : Use) (f : Field) : Bool :=
  !f.fold || (f.shape == .array && integerTypes.contains f.etype && use == .rx)

/-- R86: the command field is a SCALAR of ETYPE U8 or U16. -/
def Field.commandOk (f : Field) : Bool := f.shape == .scalar && (f.etype == .u8 || f.etype == .u16)

/-- R88: how many STRING fields a list of fields holds. -/
def stringCount (fs : List Field) : Nat := (fs.filter fun f => f.shape == .string).length

/-- R75: NF is one byte. -/
def Descr.lengthOk (d : Descr) : Bool := d.fields.length ≤ 255

/-- R86: a request descriptor begins with a command field. -/
def Descr.commandOk (use : Use) (d : Descr) : Bool :=
  match use, d.fields with
  | .rx, _ => true
  | .tx, [] => false
  | .tx, f :: _ => f.commandOk

/-- R79 to R88: the descriptors that are legal for a use. -/
def Descr.wellFormed (use : Use) (d : Descr) : Bool :=
  d.lengthOk && d.commandOk use && stringCount d.fields ≤ 1 &&
    d.fields.all fun f => f.countOk && f.stringOk && f.foldOk use

end Sys2Proof
end

