-- ==== Sys2Proof/Certificates/Slice0/Obligations.lean ====
section
/-! DEFINITION. The statements for the provers. A next state is written out as an update of the state the command found, so
every statement of a result is also its frame: what the update does not name is unchanged. The block has no memory (R50); its
state is four registers, the ports, the host's queue, the configuration and the model's own log of errors, `errLog`
(notes/assumptions/3.md), of which a statement of a numbered rule says nothing (`∃ log`). -/

open Sys2Proof Sys2Proof.Machine

/-! ## Command words -/

/-- 30_encoding.md section 1: every word that the decoder accepts is the encoding of exactly the command it answers, and
every command, with every value of IMM8, is decoded from its encoding. -/
def Obligations.DecodeIffEncode : Prop :=
  ∀ (w : Word) (i : Instr), decodeWord w = .ok i ↔ w = encode i

/-- 30_encoding.md section 1 (R73, R74): the decoder rejects exactly the words that the opcode map makes illegal. -/
def Obligations.DecodeRejectsExactlyIllegalWords : Prop :=
  ∀ w : Word, (∃ r, decodeWord w = .error r) ↔ legalCmd w = false

/-- The command words written out in the spec decode to the commands they stand for: FRAME, RDREG, WRREG and PACK in
30_encoding.md section 4 (R92), SHDLC_RX in 43_shdlc.md (R202) and I2C_RX in 42_transfer_paths.md (R182), all from the opcode
map of 30_encoding.md section 1 (R71). -/
def Obligations.SpecWordsDecode : Prop :=
  decodeWord 0x00000102 = .ok (.frame 1) ∧ decodeWord 0x00000140 = .ok (.rdreg 1) ∧
    decodeWord 0x00000041 = .ok (.wrreg 0) ∧ decodeWord 0x00000010 = .ok .pack ∧
    decodeWord 0x00000021 = .ok .shdlcRx ∧ decodeWord 0x00000031 = .ok .i2cRx

/-- 30_encoding.md section 1, 60_exceptions.md section 2 (R73, R247): an illegal command word raises ILLEGAL_CMD with
ERR_INFO = CMD and has no other effect than the writes of R255. The host's queue, the bound of DIN and DESC and the `errLog`
entry are the model's own (notes/assumptions/1.md, 2.md, 3.md). -/
def Obligations.IllegalWordRaisesIllegalCmd : Prop :=
  ∀ (s : State) (p : Ports) (rest : List HostEvent),
    s.hostQueue = .issue p :: rest →
    p.din.length ≤ s.config.maxLen.toNat → p.desc.length ≤ s.config.maxLen.toNat →
    legalCmd p.cmd = false →
    step s = .next { s with
      ports := p, hostQueue := rest, status := 0x00000010, errInfo := p.cmd, dout := [], vout := none, rdata := 0,
      errLog := .illegalCmd p.cmd :: s.errLog }

/-! ## The step -/

/-- A step whose host issues a command with a legal word runs that command on the ports the host set. The host's queue and
the bound of DIN and DESC are the model's (notes/assumptions/1.md, 2.md). -/
def Obligations.StepRunsDecodedCommand : Prop :=
  ∀ (s : State) (p : Ports) (rest : List HostEvent) (i : Instr),
    s.hostQueue = .issue p :: rest →
    p.din.length ≤ s.config.maxLen.toNat → p.desc.length ≤ s.config.maxLen.toNat →
    decodeWord p.cmd = .ok i →
    step s = exec i { s with ports := p, hostQueue := rest }

/-- 10_state.md section 7 (R31), 93_implementation_defined.md U10: a step is refused exactly when the host issues a command
with a byte sequence longer than MAX_LEN, for every value of MAX_LEN; that DIN and DESC are the ports this means is the
model's reading (notes/assumptions/1.md). -/
def Obligations.StepRefusesExactlyLongPorts : Prop :=
  ∀ (s : State) (r : Refusal),
    step s = .refused r ↔
      r = .portTooLong ∧ ∃ p rest, s.hostQueue = .issue p :: rest ∧
        (p.din.length > s.config.maxLen.toNat ∨ p.desc.length > s.config.maxLen.toNat)

/-- R33, R270: a reset sets every register to its reset value and the result ports to their defaults, from every state; and
the state the machine starts in holds these values. -/
def Obligations.ResetSetsEveryRegister : Prop :=
  (∀ (s : State) (rest : List HostEvent), s.hostQueue = .reset :: rest →
    ∃ t, step s = .next t ∧ t.ctrl = 0x00000000 ∧ t.crcCfg = 0x0800FF31 ∧ t.status = 0x00000000 ∧
      t.errInfo = 0x00000000 ∧ t.dout = [] ∧ t.vout = none ∧ t.rdata = 0) ∧
  State.reset.ctrl = 0x00000000 ∧ State.reset.crcCfg = 0x0800FF31 ∧ State.reset.status = 0x00000000 ∧
    State.reset.errInfo = 0x00000000 ∧ State.reset.dout = [] ∧ State.reset.vout = none ∧ State.reset.rdata = 0

/-- 20_memory.md section 5 (R62): a step takes exactly the host's next action, and changes neither what the host does after
it nor the instance's parameters. The queue of the host's actions is the model's (notes/assumptions/2.md). -/
def Obligations.StepTakesOneHostEvent : Prop :=
  ∀ s t : State, step s = .next t →
    t.hostQueue = s.hostQueue.tail ∧ t.config = s.config ∧
      t.ports = (match s.hostQueue with
        | .issue p :: _ => p
        | _ => s.ports)

/-- The register invariant (the reserved bits read as R24 to R26 say, STATUS.ERR is a code of R241, ERR_INFO and the flags
agree with it as R27 and R255 say, and the model's own log, notes/assumptions/3.md, shows the last error) is kept by every
step. -/
def Obligations.StepKeepsRegisterInvariant : Prop :=
  ∀ s t : State, s.Inv → step s = .next t → t.Inv

/-- The register invariant holds after reset. -/
def Obligations.ResetMeetsRegisterInvariant : Prop := State.reset.Inv

/-- R26: the fields of the STATUS word a command ends with. -/
def Obligations.StatusLayout : Prop :=
  ∀ (err : Byte) (f : Flags),
    statusErr (statusWord err f) = err ∧ (statusWord err f).getLsbD 8 = f.trunc ∧
      (statusWord err f).getLsbD 9 = f.nodata ∧ (statusWord err f).getLsbD 10 = f.devstate ∧
      (statusWord err f).getLsbD 11 = f.dyn ∧ ∀ k, 12 ≤ k → (statusWord err f).getLsbD k = false

/-- 10_state.md section 3 (R27), 30_encoding.md section 2 (R85): the layout of ERR_INFO for each error, and the eight USAGE
subcodes; positions and lengths are taken mod 2^16 (D50), and so are the indices, which is the model's reading
(notes/assumptions/9.md). -/
def Obligations.ErrInfoLayout : Prop :=
  (∀ r x p, (BlockError.checksum r x p).info.toNat = r.toNat + x.toNat * 256 + p % 65536 * 65536) ∧
  (∀ r x, (BlockError.mismatchAddr r x).info.toNat = r.toNat + x.toNat * 256) ∧
  (∀ r x, (BlockError.mismatchCmd r x).info.toNat = r.toNat + x.toNat * 256) ∧
  (∀ es, (BlockError.device es).info.toNat = es.toNat) ∧
  (∀ c f, (BlockError.usage c f).info.toNat = c.code.toNat + f.toNat * 256) ∧
  (∀ w, (BlockError.illegalCmd w).info = w) ∧
  (∀ a wr, (BlockError.illegalReg a wr).info.toNat = a.toNat + if wr then 256 else 0) ∧
  (∀ n h, h < 256 → (BlockError.frameLen n h).info.toNat = n % 65536 + h * 65536) ∧
  (∀ n, (BlockError.deframeLen n).info.toNat = n % 65536) ∧
  (∀ c f, (BlockError.decodeLen c f).info.toNat = c % 65536 + f.toNat * 65536) ∧
  (∀ k c, (BlockError.packArg k c).info.toNat = k % 65536 + if c then 65536 else 0) ∧
  (∀ k c, (BlockError.packRange k c).info.toNat = k % 65536 + if c then 65536 else 0) ∧
  (∀ n, (BlockError.rxlenOdd n).info.toNat = n % 65536) ∧
  UsageCause.manyStrings.code = 1 ∧ UsageCause.length.code = 2 ∧ UsageCause.reservedBit.code = 3 ∧
  UsageCause.reservedCode.code = 4 ∧ UsageCause.badCount.code = 5 ∧ UsageCause.stringElement.code = 6 ∧
  UsageCause.illegalFold.code = 7 ∧ UsageCause.commandField.code = 8

/-! ## Byte order -/

/-- R54: every byte of an encoding, and the value of a byte sequence, in both byte orders; and ORDER is the descriptor's
bit. -/
def Obligations.ByteOrderFormulas : Prop :=
  (∀ (n : Nat) (v : Int) (k : Nat), k < n →
    (enc .be n v)[k]? = some (BitVec.ofNat 8 ((zext (8 * n) v >>> (8 * (n - 1 - k))) &&& 0xFF)) ∧
    (enc .le n v)[k]? = some (BitVec.ofNat 8 ((zext (8 * n) v >>> (8 * k)) &&& 0xFF))) ∧
  (∀ (o : Order) (n : Nat) (v : Int), (enc o n v).length = n) ∧
  (∀ bs : List Byte,
    decU .be bs = ∑ k ∈ Finset.range bs.length, (bs.getD k 0).toNat <<< (8 * (bs.length - 1 - k)) ∧
    decU .le bs = ∑ k ∈ Finset.range bs.length, (bs.getD k 0).toNat <<< (8 * k)) ∧
  (∀ (o : Order) (bs : List Byte), decS o bs = sext (8 * bs.length) (decU o bs)) ∧
  (∀ (use : Use) (hdr : Byte) (bs : List Byte) (d : Descr), validate use (hdr :: bs) = .ok d →
    d.order = if hdr.getLsbD 0 then .le else .be)

/-- Decoding an encoded integer gives it back: unsigned for every value mod 2^(8n), signed for every value in range. -/
def Obligations.DecodeInvertsEncodeBytes : Prop :=
  ∀ (o : Order) (n : Nat) (v : Int),
    decU o (enc o n v) = zext (8 * n) v ∧
      (0 < n → -(2 : Int) ^ (8 * n - 1) ≤ v → v < 2 ^ (8 * n - 1) → decS o (enc o n v) = v)

/-! ## Descriptors -/

/-- 30_encoding.md sections 2 and 4: validation accepts exactly the assembly of each legal descriptor, and answers that
descriptor: every legal descriptor survives the round trip through its bytes, and no bit of the bytes is ignored. And R77 to
R79: the numbers of the element types and shapes in a type byte. -/
def Obligations.ValidateIffAssembledLegalDescriptor : Prop :=
  (∀ (use : Use) (bytes : List Byte) (d : Descr),
    validate use bytes = .ok d ↔ bytes = assemble d ∧ d.wellFormed use = true) ∧
  ∀ f : Field, ∃ e sh : Nat,
    [EType.u8, .i8, .u16, .i16, .u32, .i32, .u64, .i64, .bool, .f32, .f64][e]? = some f.etype ∧
      [Shape.scalar, .array, .string][sh]? = some f.shape ∧
      (typeByte f).toNat = e + sh * 16 + (if f.fold then 64 else 0)

/-- R85: validation accepts the bytes that fail no check, and otherwise raises USAGE (0x05) with the subcode and the FIELD of
the first check that fails, in the rule's order: ERR_INFO = SUBCODE | FIELD << 8. -/
def Obligations.DescriptorChecksInOrder : Prop :=
  ∀ (use : Use) (bytes : List Byte),
    (match validate use bytes with
      | .ok _ => none
      | .error e => some (e.code, e.info.toNat)) =
    (firstUsage use bytes).map fun u => ((0x05 : Byte), u.1 + u.2 * 256)

/-- 30_encoding.md section 2 (R76): a descriptor whose length is not 2 + 2*NF fails with USAGE for its length (subcode 2 in
ErrInfoLayout), and nothing else does. -/
def Obligations.WrongDescriptorLengthIsSubcode2 : Prop :=
  ∀ (use : Use) (bytes : List Byte),
    validate use bytes = .error (.usage .length 0xFF) ↔
      (bytes.length < 2 ∨ bytes.length ≠ 2 + 2 * (bytes.getD 1 0).toNat)

/-- R88: a descriptor with more than one STRING field, legal otherwise, fails with USAGE subcode 1 at its second STRING
field, in request and response descriptors alike. -/
def Obligations.SecondStringFieldRejected : Prop :=
  ∀ (use : Use) (d : Descr),
    d.lengthOk = true → d.commandOk use = true →
    (∀ f ∈ d.fields, f.countOk = true ∧ f.stringOk = true ∧ f.foldOk use = true) →
    2 ≤ stringCount d.fields →
    ∃ i f, d.fields[i]? = some f ∧ f.shape = .string ∧ stringCount (d.fields.take i) = 1 ∧
      validate use (assemble d) = .error (.usage .manyStrings (BitVec.ofNat 8 i))

/-- R246: a present descriptor that fails validation ends every command that reads it with USAGE, before anything else that
command checks, whatever its other ports hold. -/
def Obligations.MalformedDescriptorRaisesUsage : Prop :=
  ∀ (i : Instr) (use : Use) (s : State) (e : BlockError),
    ((use = .rx ∧ s.ports.desc ≠ [] ∧ i ∈ [Instr.rxlen, .unpack, .unpackDyn, .shdlcRx, .i2cRx]) ∨
      (use = .tx ∧ i ∈ [Instr.pack, .i2cTx])) →
    validate use s.ports.desc = .error e →
    ∃ cause field, e = .usage cause field ∧
      ∃ log, exec i s = .next { s with
        status := 0x00000005, errInfo := cause.code.setWidth 32 ||| (field.setWidth 32 <<< 8),
        dout := [], vout := none, rdata := 0, errLog := log }

/-! ## Packing -/

/-- R110: flattening splices each LIST in place of itself, one level deep, and a LIST inside a LIST raises PACK_ARG with
the number of arguments before it. -/
def Obligations.FlattenSplicesLists : Prop :=
  (∀ vin : List Value, (∀ v ∈ vin, noNestedList v = true) → flatten vin = .ok (vin.flatMap spliced)) ∧
  (∀ (before after : List Value) (xs : Values) (good bad : List Value) (ys : Values),
    (∀ v ∈ before, noNestedList v = true) → xs.toList = good ++ .list ys :: bad →
    (∀ v ∈ good, isListValue v = false) →
    flatten (before ++ .list xs :: after) =
      .error (.packArg ((before.flatMap spliced).length + good.length) false))

/-- R114, success: the command id and the arguments, each encoded for its slot, in order; RDATA is the width of the command
id; TRUNC is set exactly when a string is longer than its field. And R113, what each kind of slot makes of its argument. -/
def Obligations.PackEncodesRequest : Prop :=
  (∀ (s : State) (d : Descr) (args : List Value),
    validate .tx s.ports.desc = .ok d → s.ports.cmdid < 2 ^ (8 * cmdWidth d) →
    flatten s.ports.vin = .ok args → List.Forall₂ slotAccepts (slots d) args →
    ∃ st : Word,
      exec .pack s = .next { s with
        dout := enc d.order (cmdWidth d) s.ports.cmdid ++ (List.zipWith (encSlot d.order) (slots d) args).flatten
        vout := none, rdata := BitVec.ofNat 32 (cmdWidth d), status := st, errInfo := 0 } ∧
      (st = 0x00000100 ∨ st = 0x00000000) ∧ (st = 0x00000100 ↔ hasLongString (slots d) args)) ∧
  ∀ o : Order,
    (∀ p ∈ [(EType.u8, 1), (.i8, 1), (.u16, 2), (.i16, 2), (.u32, 4), (.i32, 4), (.u64, 8), (.i64, 8)],
      ∀ i : Int, encSlot o (.elem p.1) (.int i) = enc o p.2 i) ∧
    encSlot o (.elem .bool) (.bool true) = [0x01] ∧ encSlot o (.elem .bool) (.bool false) = [0x00] ∧
    (∀ x : BitVec 32, encSlot o (.elem .f32) (.f32 x) = enc o 4 x.toNat) ∧
    (∀ x : BitVec 64, encSlot o (.elem .f64) (.f64 x) = enc o 8 x.toNat) ∧
    (∀ (c : Nat) (b : List Byte), c < b.length → encSlot o (.str c) (.bytes b) = b.take c) ∧
    (∀ (c : Nat) (b : List Byte), b.length ≤ c →
      encSlot o (.str c) (.bytes b) = b ++ List.replicate (c - b.length) 0x00)

/-- 30_encoding.md section 3 (R90, R91): the command id is 1 or 2 bytes wide and a packed request is as long as the command
id and the slots together, truncated or not. -/
def Obligations.PackedRequestLength : Prop :=
  ∀ (s t : State) (d : Descr), validate .tx s.ports.desc = .ok d → exec .pack s = .next t →
    statusErr t.status = 0 →
    (cmdWidth d = 1 ∨ cmdWidth d = 2) ∧ t.rdata = BitVec.ofNat 32 (cmdWidth d) ∧
      t.dout.length = cmdWidth d + ((slots d).map slotSize).sum

/-- 40_field_codec.md sections 1 and 2 (R110, R114, R252, R253): a command id that does not fit the command field raises
PACK_RANGE with bit 16 set, whatever VIN holds; else a LIST inside a LIST on VIN raises PACK_ARG with bit 16 clear and the
number of arguments before it, taken mod 2^16 (notes/assumptions/9.md); else an argument count other than the slot count
raises PACK_ARG with bit 16 set and the smaller count. The `errLog` entry is the model's own (notes/assumptions/3.md). -/
def Obligations.PackRejectsCommandIdThenCount : Prop :=
  ∀ (s : State) (d : Descr), validate .tx s.ports.desc = .ok d →
    (2 ^ (8 * cmdWidth d) ≤ s.ports.cmdid →
      exec .pack s = .next { s with
        status := 0x00000016, errInfo := 0x00010000, dout := [], vout := none, rdata := 0,
        errLog := .packRange 0 true :: s.errLog }) ∧
    (s.ports.cmdid < 2 ^ (8 * cmdWidth d) →
      ∀ (before after : List Value) (xs : Values) (good bad : List Value) (ys : Values),
        s.ports.vin = before ++ .list xs :: after → (∀ v ∈ before, noNestedList v = true) →
        xs.toList = good ++ .list ys :: bad → (∀ v ∈ good, isListValue v = false) →
        exec .pack s = .next { s with
          status := 0x00000015,
          errInfo := BitVec.ofNat 32 (((before.flatMap spliced).length + good.length) % 65536),
          dout := [], vout := none, rdata := 0,
          errLog := .packArg ((before.flatMap spliced).length + good.length) false :: s.errLog }) ∧
    (s.ports.cmdid < 2 ^ (8 * cmdWidth d) →
      ∀ args : List Value, flatten s.ports.vin = .ok args → args.length ≠ (slots d).length →
        exec .pack s = .next { s with
          status := 0x00000015, errInfo := BitVec.ofNat 32 (0x10000 + min args.length (slots d).length),
          dout := [], vout := none, rdata := 0,
          errLog := .packArg (min args.length (slots d).length) true :: s.errLog })

/-- 40_field_codec.md sections 1 and 2 (R111, R112, R114): the first argument that its slot does not accept raises PACK_ARG
(wrong kind) or PACK_RANGE (out of range) with its index; the kind each slot accepts; and the range of each integer type. The
`errLog` entry is the model's own (notes/assumptions/3.md). -/
def Obligations.PackRejectsFirstBadArgument : Prop :=
  (∀ (s : State) (d : Descr) (args : List Value) (k : Nat) (sl : Slot) (v : Value),
    validate .tx s.ports.desc = .ok d → s.ports.cmdid < 2 ^ (8 * cmdWidth d) →
    flatten s.ports.vin = .ok args → args.length = (slots d).length →
    List.Forall₂ slotAccepts ((slots d).take k) (args.take k) →
    (slots d)[k]? = some sl → args[k]? = some v →
    (kindOk sl v = false →
      exec .pack s = .next { s with
        status := 0x00000015, errInfo := BitVec.ofNat 32 k, dout := [], vout := none, rdata := 0,
        errLog := .packArg k false :: s.errLog }) ∧
    (kindOk sl v = true → rangeOk sl v = false →
      exec .pack s = .next { s with
        status := 0x00000016, errInfo := BitVec.ofNat 32 k, dout := [], vout := none, rdata := 0,
        errLog := .packRange k false :: s.errLog })) ∧
  (∀ (sl : Slot) (v : Value), kindOk sl v = true ↔
    (∃ e i, sl = .elem e ∧ v = .int i ∧ e ∈ [EType.u8, .i8, .u16, .i16, .u32, .i32, .u64, .i64]) ∨
    (∃ b, sl = .elem .bool ∧ v = .bool b) ∨ (∃ x, sl = .elem .f32 ∧ v = .f32 x) ∨
    (∃ x, sl = .elem .f64 ∧ v = .f64 x) ∨ (∃ c b, sl = .str c ∧ v = .bytes b)) ∧
  (∀ i : Int,
    (rangeOk (.elem .u8) (.int i) = true ↔ 0 ≤ i ∧ i ≤ 255) ∧
    (rangeOk (.elem .i8) (.int i) = true ↔ -128 ≤ i ∧ i ≤ 127) ∧
    (rangeOk (.elem .u16) (.int i) = true ↔ 0 ≤ i ∧ i ≤ 65535) ∧
    (rangeOk (.elem .i16) (.int i) = true ↔ -32768 ≤ i ∧ i ≤ 32767) ∧
    (rangeOk (.elem .u32) (.int i) = true ↔ 0 ≤ i ∧ i < 2 ^ 32) ∧
    (rangeOk (.elem .i32) (.int i) = true ↔ -2 ^ 31 ≤ i ∧ i < 2 ^ 31) ∧
    (rangeOk (.elem .u64) (.int i) = true ↔ 0 ≤ i ∧ i < 2 ^ 64) ∧
    (rangeOk (.elem .i64) (.int i) = true ↔ -2 ^ 63 ≤ i ∧ i < 2 ^ 63)) ∧
  (∀ (sl : Slot) (v : Value), (∀ i, v ≠ .int i) → rangeOk sl v = true)

/-- 40_field_codec.md section 5 (R124, which the spec marks as derived): what PACK makes of a request whose fields are all
SCALAR, UNPACK with the same descriptor turns back into the command id and the arguments, and UNPACK of the bytes after the
command id with the command field removed from the descriptor gives the arguments. -/
def Obligations.UnpackInvertsPack : Prop :=
  ∀ (s t : State) (d : Descr) (args : List Value),
    validate .tx s.ports.desc = .ok d → (∀ f ∈ d.fields, f.shape = .scalar) →
    flatten s.ports.vin = .ok args → exec .pack s = .next t → statusErr t.status = 0 →
    exec .unpack (s.withDin t.dout) = .next { s.withDin t.dout with
      dout := [], vout := some (.int s.ports.cmdid :: args), rdata := 0, status := 0, errInfo := 0 } ∧
    (∀ u : State, u.ports.desc = assemble ⟨d.order, d.fields.tail⟩ → u.ports.din = t.dout.drop (cmdWidth d) →
      exec .unpack u = .next { u with dout := [], vout := some args, rdata := 0, status := 0, errInfo := 0 })

/-! ## Decoding -/

/-- R115: the fixed decode gives each SCALAR field the bytes at its offset, and raises DECODE_LEN where the length is not
exactly `rx_length`. -/
def Obligations.UnpackFixedFields : Prop :=
  ∀ (s : State) (d : Descr), s.ports.desc ≠ [] → validate .rx s.ports.desc = .ok d → isVar d = false →
    (s.ports.din.length = rxLength d →
      ∃ vs, exec .unpack s = .next { s with
          dout := [], vout := some vs, rdata := 0, status := 0, errInfo := 0 } ∧
        vs.length = d.fields.length ∧
        ∀ i f, d.fields[i]? = some f →
          vs[i]? = some (decScalar d.order f.etype
            (memRead s.ports.din (((d.fields.take i).map fun g => etypeSize g.etype).sum) (etypeSize f.etype)))) ∧
    (s.ports.din.length ≠ rxLength d →
      ∃ log, exec .unpack s = .next { s with
        status := 0x00000014, errInfo := 0x00FF0000 ||| BitVec.ofNat 32 (s.ports.din.length % 65536),
        dout := [], vout := none, rdata := 0, errLog := log })

/-- R116: what each element type makes of its bytes. -/
def Obligations.ScalarDecodeByType : Prop :=
  ∀ (o : Order) (e : EType) (bs : List Byte), bs.length = etypeSize e →
    (e ∈ [EType.u8, .u16, .u32, .u64] → decScalar o e bs = .int (decU o bs)) ∧
    (e ∈ [EType.i8, .i16, .i32, .i64] → decScalar o e bs = .int (decS o bs)) ∧
    (e = .bool → decScalar o e bs = .bool (decide (bs[0]? ≠ some 0))) ∧
    (e = .f32 → ∃ x : BitVec 32, decScalar o e bs = .f32 x ∧ x.toNat = decU o bs) ∧
    (e = .f64 → ∃ x : BitVec 64, decScalar o e bs = .f64 x ∧ x.toNat = decU o bs)

/-- R117: the dynamic decoder walks a read cursor from 0 over the fields: it succeeds with exactly the values of such a walk,
and fails exactly at the first SCALAR field with fewer bytes left at the cursor than its size. -/
def Obligations.DynamicDecodeWalksCursor : Prop :=
  ∀ (d : Descr) (bs : List Byte),
    (∀ vs : List Value, dynDecode d bs = .ok vs ↔
      vs.length = d.fields.length ∧ ∃ cur : Nat → Nat, cur 0 = 0 ∧
        ∀ i f v, d.fields[i]? = some f → vs[i]? = some v → cursorStep d.order bs cur i f v) ∧
    (∀ e : BlockError, dynDecode d bs = .error e ↔
      ∃ (cur : Nat → Nat) (i : Nat) (f : Field), cur 0 = 0 ∧
        (∀ j g, j < i → d.fields[j]? = some g → ∃ v, cursorStep d.order bs cur j g v) ∧
        d.fields[i]? = some f ∧ f.shape = .scalar ∧ cur i + etypeSize f.etype > bs.length ∧
        e = .decodeLen (cur i) (BitVec.ofNat 8 i))

/-- R118: an array scan takes whole elements one after another until the declared maximum or the end of the data, zero
elements included, and its value is ABSENT, folded, or the elements. -/
def Obligations.ArrayScanTakesWholeElements : Prop :=
  (∀ (o : Order) (e : EType) (bs : List Byte) (count c : Nat),
    scanArray o e bs count c =
      ((List.range (min count ((bs.length - c) / etypeSize e))).map fun j =>
          decScalar o e (memRead bs (c + j * etypeSize e) (etypeSize e)),
        c + min count ((bs.length - c) / etypeSize e) * etypeSize e)) ∧
  (∀ (fold : Bool) (e : EType), arrValue [] fold e = .absent) ∧
  (∀ (els : List Value) (e : EType), els ≠ [] → arrValue els false e = .arr (Values.ofList els)) ∧
  (∀ (is : List Int) (e : EType), is ≠ [] →
    arrValue (is.map .int) true e = .arr (Values.ofList [.int (foldBits (8 * etypeSize e) is)]))

/-- R119: a string scan takes the bytes before the first zero byte among the next `count` bytes and consumes that zero; its
value is ABSENT or the bytes. -/
def Obligations.StringScanStopsAtZero : Prop :=
  (∀ (bs : List Byte) (count c : Nat),
    scanString bs count c =
      (((bs.drop c).take count).takeWhile fun b => b != 0,
        c + (((bs.drop c).take count).takeWhile fun b => b != 0).length +
          if 0 ∈ (bs.drop c).take count then 1 else 0)) ∧
  (∀ bs : List Byte, strValue bs = if bs = [] then .absent else .str bs)

/-- R120: a fold concatenates the elements' raw bit patterns, the most significant element first, into an unsigned integer
of `m * W` bits. -/
def Obligations.FoldConcatenatesElements : Prop :=
  ∀ (w : Nat) (is : List Int),
    foldBits w is = ∑ j ∈ Finset.range is.length, zext w (is.getD j 0) <<< (w * (is.length - 1 - j)) ∧
      foldBits w is < 2 ^ (w * is.length)

/-- 40_field_codec.md sections 3 and 4 (R117, R123), 60_exceptions.md section 2 (R251): with a legal descriptor, fixed or
variable, UNPACK_DYN delivers exactly what the dynamic decoder makes of DIN, with DYN set, and raises DECODE_LEN with the
cursor and the field where that decoder runs short. On at least `rx_length` bytes it never does: there is one value for each
field, and the fields of a fixed descriptor decode as UNPACK decodes the first `rx_length` bytes, the excess ignored. -/
def Obligations.UnpackDynCompletes : Prop :=
  ∀ (s : State) (d : Descr), s.ports.desc ≠ [] → validate .rx s.ports.desc = .ok d →
    (∀ vs : List Value, dynDecode d s.ports.din = .ok vs →
      exec .unpackDyn s = .next { s with
        dout := [], vout := some vs, rdata := 0, status := 0x00000800, errInfo := 0 }) ∧
    (∀ (c : Nat) (f : Byte), dynDecode d s.ports.din = .error (.decodeLen c f) →
      ∃ log, exec .unpackDyn s = .next { s with
        status := 0x00000014, errInfo := BitVec.ofNat 32 (c % 65536 + f.toNat * 65536),
        dout := [], vout := none, rdata := 0, errLog := log }) ∧
    (rxLength d ≤ s.ports.din.length →
      ∃ vs, dynDecode d s.ports.din = .ok vs ∧
        exec .unpackDyn s = .next { s with
          dout := [], vout := some vs, rdata := 0, status := 0x00000800, errInfo := 0 } ∧
        vs.length = d.fields.length ∧
        (isVar d = false → vs = fixedFields d.order (s.ports.din.take (rxLength d)) 0 d.fields))

/-- R122, R123: with an absent descriptor UNPACK and UNPACK_DYN give NONE, and a variable descriptor makes UNPACK decode as
UNPACK_DYN does. -/
def Obligations.UnpackChoosesDecoder : Prop :=
  (∀ s : State, s.ports.desc = [] →
    exec .unpack s = .next { s with dout := [], vout := none, rdata := 0, status := 0, errInfo := 0 } ∧
    exec .unpackDyn s = .next { s with dout := [], vout := none, rdata := 0, status := 0, errInfo := 0 }) ∧
  (∀ (s : State) (d : Descr), s.ports.desc ≠ [] → validate .rx s.ports.desc = .ok d → isVar d = true →
    exec .unpack s = exec .unpackDyn s)

/-- R251, the dynamic half: the dynamic decoder fails only at a SCALAR field with fewer bytes left than its size, and the
error names the cursor and the field. -/
def Obligations.DynamicDecodeFailsOnlyOnShortScalar : Prop :=
  ∀ (d : Descr) (bs : List Byte) (e : BlockError), dynDecode d bs = .error e →
    ∃ i c f, d.fields[i]? = some f ∧ f.shape = .scalar ∧ e = .decodeLen c (BitVec.ofNat 8 i) ∧
      c ≤ bs.length ∧ bs.length < c + etypeSize f.etype ∧
      c ≤ ((d.fields.take i).map fieldMaxBytes).sum

/-- 30_encoding.md section 2 (R83): "`rx_length` is an upper bound": the dynamic decoder reads nothing beyond the first
`rx_length` bytes. -/
def Obligations.RxLengthBoundsDynamicDecode : Prop :=
  ∀ (d : Descr) (bs : List Byte), dynDecode d bs = dynDecode d (bs.take (rxLength d))

/-! ## The framer -/

/-- R153: CRCCALC gives the checksum of exactly two bytes with the parameters of CRC_CFG, whatever CTRL holds, and raises
FRAME_LEN for any other length. -/
def Obligations.CrccalcGivesChecksum : Prop :=
  ∀ s : State,
    (∀ a b, s.ports.din = [a, b] →
      exec .crccalc s = .next { s with
        rdata := BitVec.setWidth 32 (crc8 (s.crcCfg.extractLsb' 0 8) (s.crcCfg.extractLsb' 8 8)
          (s.crcCfg.extractLsb' 16 8) a b)
        dout := [], vout := none, status := 0, errInfo := 0 }) ∧
    (s.ports.din.length ≠ 2 →
      ∃ log, exec .crccalc s = .next { s with
        status := 0x00000012, errInfo := BitVec.ofNat 32 (s.ports.din.length % 65536),
        dout := [], vout := none, rdata := 0, errLog := log })

/-- 41_crc_framer.md section 1 (R151, whose algorithm and check value the spec takes from general knowledge:
notes/assumptions/4.md): for every POLY, INIT and XOROUT the checksum, XOROUT taken off, is the remainder of
`(INIT ^ b0) * x^16 + b1 * x^8` divided by `x^8 + POLY` over GF(2), most significant bit first; a remainder of 8 bits is the
only one. Then the rule's check value; and, a corner case that 44_register_access.md marks as derived (R221), with POLY = 0 the
checksum is XOROUT for every pair. -/
def Obligations.CrcOfPolyZeroIsXorOut : Prop :=
  (∀ poly init xorOut b0 b1 : Byte, ∃ q : BitVec 16,
    ((init ^^^ b0) ++ b1 ++ 0#8 : BitVec 24) =
      polyMul q (1#16 ++ poly) ^^^ (crc8 poly init xorOut b0 b1 ^^^ xorOut).setWidth 24) ∧
  crc8 0x31 0xFF 0x00 0xBE 0xEF = 0x92 ∧
  (∀ init xorOut a b : Byte, crc8 0 init xorOut a b = xorOut)

/-- R154: FRAME passes DIN through with CRC_EN = 0; with CRC_EN = 1 it raises FRAME_LEN for a header longer than DIN or an
odd payload, and otherwise leaves the header unmodified and follows each payload pair by its checksum byte. -/
def Obligations.FrameInsertsChecksums : Prop :=
  ∀ (h : Byte) (s : State),
    (s.ctrl.getLsbD 0 = false → exec (.frame h) s = .next { s with
      dout := s.ports.din, vout := none, rdata := 0, status := 0, errInfo := 0 }) ∧
    (s.ctrl.getLsbD 0 = true → (s.ports.din.length < h.toNat ∨ (s.ports.din.length - h.toNat) % 2 = 1) →
      ∃ log, exec (.frame h) s = .next { s with
        status := 0x00000012, errInfo := BitVec.ofNat 32 (s.ports.din.length % 65536 + h.toNat * 65536),
        dout := [], vout := none, rdata := 0, errLog := log }) ∧
    (s.ctrl.getLsbD 0 = true → h.toNat ≤ s.ports.din.length → (s.ports.din.length - h.toNat) % 2 = 0 →
      ∃ out, exec (.frame h) s = .next { s with dout := out, vout := none, rdata := 0, status := 0, errInfo := 0 } ∧
        out.length = h.toNat + 3 * ((s.ports.din.length - h.toNat) / 2) ∧
        out.take h.toNat = s.ports.din.take h.toNat ∧
        ∀ k, k < (s.ports.din.length - h.toNat) / 2 →
          ∃ a b, s.ports.din[h.toNat + 2 * k]? = some a ∧ s.ports.din[h.toNat + 2 * k + 1]? = some b ∧
            out[h.toNat + 3 * k]? = some a ∧ out[h.toNat + 3 * k + 1]? = some b ∧
            out[h.toNat + 3 * k + 2]? = some (s.crcFn a b))

/-- R155: DEFRAME passes DIN through with CRC_EN = 0; with CRC_EN = 1 it raises DEFRAME_LEN for a length that is no
multiple of 3, CHECKSUM (with the original buffer on DOUT) for the first group whose checksum byte differs, and otherwise
strips the checksum bytes, with NODATA exactly when nothing remains. -/
def Obligations.DeframeStripsChecksums : Prop :=
  ∀ s : State,
    (s.ctrl.getLsbD 0 = false → exec .deframe s = .next { s with
      dout := s.ports.din, vout := none, rdata := 0, status := 0, errInfo := 0 }) ∧
    (s.ctrl.getLsbD 0 = true → s.ports.din.length % 3 ≠ 0 →
      ∃ log, exec .deframe s = .next { s with
        status := 0x00000013, errInfo := BitVec.ofNat 32 (s.ports.din.length % 65536),
        dout := [], vout := none, rdata := 0, errLog := log }) ∧
    (s.ctrl.getLsbD 0 = true → s.ports.din.length % 3 = 0 →
      ∀ k a b c, (∀ j, j < k → groupGood s.crcFn s.ports.din j) →
        s.ports.din[3 * k]? = some a → s.ports.din[3 * k + 1]? = some b → s.ports.din[3 * k + 2]? = some c →
        c ≠ s.crcFn a b →
        ∃ log, exec .deframe s = .next { s with
          status := 0x00000001
          errInfo := BitVec.ofNat 32 (c.toNat + (s.crcFn a b).toNat * 256 + (3 * k + 2) % 65536 * 65536)
          dout := s.ports.din, vout := none, rdata := 0
          errLog := log }) ∧
    (s.ctrl.getLsbD 0 = true → s.ports.din.length % 3 = 0 →
      (∀ k, k < s.ports.din.length / 3 → groupGood s.crcFn s.ports.din k) →
      ∃ out, exec .deframe s = .next { s with
          dout := out, vout := none, rdata := 0
          status := if s.ports.din = [] then 0x00000200 else 0
          errInfo := 0 } ∧
        out.length = 2 * (s.ports.din.length / 3) ∧
        ∀ k, k < s.ports.din.length / 3 →
          out[2 * k]? = s.ports.din[3 * k]? ∧ out[2 * k + 1]? = s.ports.din[3 * k + 1]?)

/-- 41_crc_framer.md section 3 (R156, which the spec marks as derived): DEFRAME of what FRAME made of an even payload, its
header removed, gives the payload back, for every CRC_CFG and with CRC_EN set or clear; NODATA exactly when CRC_EN is set and
the payload is empty. -/
def Obligations.DeframeInvertsFrame : Prop :=
  ∀ (h : Byte) (s t : State) (hd p : List Byte),
    s.ports.din = hd ++ p → hd.length = h.toNat → p.length % 2 = 0 → exec (.frame h) s = .next t →
    statusErr t.status = 0 ∧
      exec .deframe (s.withDin (t.dout.drop h.toNat)) = .next { s.withDin (t.dout.drop h.toNat) with
        dout := p, vout := none, rdata := 0, errInfo := 0
        status := if s.ctrl.getLsbD 0 = true ∧ p = [] then 0x00000200 else 0 }

/-- 41_crc_framer.md section 3 (R157, which the spec marks as derived): DEFRAME finds a wrong byte in the place of any
checksum byte that FRAME inserted, and reports the byte received, the byte expected and its position. The `errLog` entry is
the model's own (notes/assumptions/3.md). -/
def Obligations.CorruptedChecksumDetected : Prop :=
  ∀ (s t : State) (k : Nat) (good bad : Byte),
    s.ctrl.getLsbD 0 = true → s.ports.din.length % 2 = 0 → exec (.frame 0) s = .next t →
    t.dout[3 * k + 2]? = some good → bad ≠ good →
    exec .deframe (s.withDin (t.dout.set (3 * k + 2) bad)) = .next { s.withDin (t.dout.set (3 * k + 2) bad) with
      status := 0x00000001
      errInfo := BitVec.ofNat 32 (bad.toNat + good.toNat * 256 + (3 * k + 2) % 65536 * 65536)
      dout := t.dout.set (3 * k + 2) bad, vout := none, rdata := 0
      errLog := .checksum bad good (3 * k + 2) :: s.errLog }

/-- 41_crc_framer.md sections 1 and 3 (R150, R156): the round trip of an even payload holds "for any such function". -/
def Obligations.FramingRoundTripsForAnyFunction : Prop :=
  ∀ (crc : Byte → Byte → Byte) (p : List Byte), p.length % 2 = 0 →
    ∃ framed, frameBytes (some crc) 0 p = .ok framed ∧ framed.length = 3 * (p.length / 2) ∧
      deframeBytes (some crc) framed = .ok (p, p.isEmpty)

/-! ## Transfer paths -/

/-- R180: RXLEN gives 0 for an absent descriptor, `rx_length` with CRC_EN = 0, and with CRC_EN = 1 the length scaled by 3/2,
or RXLEN_ODD where it is odd. -/
def Obligations.RxlenScalesLength : Prop :=
  (∀ s : State, s.ports.desc = [] →
    exec .rxlen s = .next { s with rdata := 0, dout := [], vout := none, status := 0, errInfo := 0 }) ∧
  (∀ (s : State) (d : Descr), s.ports.desc ≠ [] → validate .rx s.ports.desc = .ok d →
    (s.ctrl.getLsbD 0 = false → ∃ r : Word, r.toNat = rxLength d ∧
      exec .rxlen s = .next { s with rdata := r, dout := [], vout := none, status := 0, errInfo := 0 }) ∧
    (s.ctrl.getLsbD 0 = true → rxLength d % 2 = 0 → ∃ r : Word, 2 * r.toNat = 3 * rxLength d ∧
      exec .rxlen s = .next { s with rdata := r, dout := [], vout := none, status := 0, errInfo := 0 }) ∧
    (s.ctrl.getLsbD 0 = true → rxLength d % 2 = 1 →
      ∃ log, exec .rxlen s = .next { s with
        status := 0x00000017, errInfo := BitVec.ofNat 32 (rxLength d % 65536),
        dout := [], vout := none, rdata := 0, errLog := log }))

/-- 42_transfer_paths.md (R181): "This equals PACK followed by FRAME with `h = w` and DIN = PACK's DOUT": a request that
PACK refuses ends I2C_TX the same way, and one that PACK packs is framed, or refused, as FRAME does it. -/
def Obligations.I2cTxIsPackThenFrame : Prop :=
  ∀ s p : State, exec .pack s = .next p →
    (statusErr p.status ≠ 0 → exec .i2cTx s = .next p) ∧
    (statusErr p.status = 0 → ∀ (h : Byte) (f : State), h.setWidth 32 = p.rdata →
      exec (.frame h) (s.withDin p.dout) = .next f →
      (statusErr f.status = 0 → exec .i2cTx s = .next { p with dout := f.dout }) ∧
      (statusErr f.status ≠ 0 → exec .i2cTx s = .next { f with ports := s.ports }))

/-- R181, success: I2C_TX completes for every request that PACK packs, with CRC_EN = 0 or an even number of argument
bytes. -/
def Obligations.I2cTxCompletes : Prop :=
  ∀ (s : State) (d : Descr) (args : List Value),
    validate .tx s.ports.desc = .ok d → s.ports.cmdid < 2 ^ (8 * cmdWidth d) →
    flatten s.ports.vin = .ok args → List.Forall₂ slotAccepts (slots d) args →
    (s.ctrl.getLsbD 0 = false ∨ ((slots d).map slotSize).sum % 2 = 0) →
    ∃ (t : List Byte) (st : Word),
      exec .i2cTx s = .next { s with
        dout := t, vout := none, rdata := BitVec.ofNat 32 (cmdWidth d), status := st, errInfo := 0 } ∧
      (st = 0x00000100 ∨ st = 0x00000000) ∧ (st = 0x00000100 ↔ hasLongString (slots d) args) ∧
      t.take (cmdWidth d) = enc d.order (cmdWidth d) s.ports.cmdid ∧
      (s.ctrl.getLsbD 0 = false →
        t.drop (cmdWidth d) = (List.zipWith (encSlot d.order) (slots d) args).flatten) ∧
      (s.ctrl.getLsbD 0 = true →
        t.drop (cmdWidth d) = frameGroups s.crcFn (List.zipWith (encSlot d.order) (slots d) args).flatten)

/-- 42_transfer_paths.md (R182): I2C_RX ends as DEFRAME does where that fails or leaves no data, and otherwise decodes what
DEFRAME left as UNPACK does, with the deframed bytes on DOUT, or nothing on DOUT where the decode fails. -/
def Obligations.I2cRxIsDeframeThenUnpack : Prop :=
  ∀ s f : State, (s.ports.desc = [] ∨ ∃ d, validate .rx s.ports.desc = .ok d) → exec .deframe s = .next f →
    ((statusErr f.status ≠ 0 ∨ statusNodata f.status = true) → exec .i2cRx s = .next f) ∧
    (statusErr f.status = 0 → statusNodata f.status = false →
      ∀ u : State, exec .unpack (s.withDin f.dout) = .next u →
        exec .i2cRx s = .next { u with
          ports := s.ports
          dout := if statusErr u.status = 0 then f.dout else [] })

/-- R182, success: a response that carries data framed as FRAME frames it (or, with CRC_EN = 0, the data itself) and has
exactly the length of a fixed descriptor is deframed and decoded. -/
def Obligations.I2cRxDecodesFramedResponse : Prop :=
  ∀ (s : State) (d : Descr) (data : List Byte),
    s.ports.desc ≠ [] → validate .rx s.ports.desc = .ok d → isVar d = false →
    data.length = rxLength d → data ≠ [] →
    ((s.ctrl.getLsbD 0 = true ∧ data.length % 2 = 0 ∧ s.ports.din = frameGroups s.crcFn data) ∨
      (s.ctrl.getLsbD 0 = false ∧ s.ports.din = data)) →
    exec .i2cRx s = .next { s with
      dout := data, vout := some (fixedFields d.order data 0 d.fields), rdata := 0, status := 0, errInfo := 0 }

/-! ## SHDLC -/

/-- R201: SHDLC_CHECK checks the address, then the command, then the status byte's low 7 bits, and otherwise passes the data
on with DEVSTATE = ES[7]. -/
def Obligations.ShdlcCheckOrder : Prop :=
  ∀ s : State,
    (s.ports.ea ≠ s.ports.sa → ∃ log, exec .shdlcCheck s = .next { s with
      status := 0x00000002, errInfo := BitVec.ofNat 32 (s.ports.ea.toNat + s.ports.sa.toNat * 256),
      dout := [], vout := none, rdata := 0, errLog := log }) ∧
    (s.ports.ea = s.ports.sa → s.ports.ec ≠ s.ports.sc → ∃ log, exec .shdlcCheck s = .next { s with
      status := 0x00000003, errInfo := BitVec.ofNat 32 (s.ports.ec.toNat + s.ports.sc.toNat * 256),
      dout := [], vout := none, rdata := 0, errLog := log }) ∧
    (s.ports.ea = s.ports.sa → s.ports.ec = s.ports.sc → s.ports.es.toNat % 128 ≠ 0 →
      ∃ log, exec .shdlcCheck s = .next { s with
        status := if 128 ≤ s.ports.es.toNat then 0x00000404 else 0x00000004
        errInfo := BitVec.ofNat 32 s.ports.es.toNat
        dout := [], vout := none, rdata := 0, errLog := log }) ∧
    (s.ports.ea = s.ports.sa → s.ports.ec = s.ports.sc → s.ports.es.toNat % 128 = 0 →
      exec .shdlcCheck s = .next { s with
        status := if 128 ≤ s.ports.es.toNat then 0x00000400 else 0
        dout := s.ports.din, vout := none, rdata := 0, errInfo := 0 })

/-- 43_shdlc.md (R202): with a legal or absent descriptor SHDLC_RX ends as SHDLC_CHECK does where that fails, and otherwise
decodes the data as UNPACK_DYN does, with the data on DOUT and both commands' flags. A decode that fails leaves DEVSTATE 0
whatever ES holds: 10_state.md section 4 (R28) does not name the case, and that 60_exceptions.md section 3 (R255) decides it is
the model's reading (notes/assumptions/10.md). -/
def Obligations.ShdlcRxIsCheckThenUnpackDyn : Prop :=
  ∀ s c u : State, (s.ports.desc = [] ∨ ∃ d, validate .rx s.ports.desc = .ok d) →
    exec .shdlcCheck s = .next c → exec .unpackDyn s = .next u →
    (statusErr c.status ≠ 0 → exec .shdlcRx s = .next c) ∧
    (statusErr c.status = 0 → statusErr u.status ≠ 0 → exec .shdlcRx s = .next u) ∧
    (statusErr c.status = 0 → statusErr u.status = 0 →
      exec .shdlcRx s = .next { u with dout := c.dout, status := c.status ||| u.status })

/-- 43_shdlc.md (R202), 60_exceptions.md sections 2 and 3 (R251, R255): for a response that matches and reports no error code,
with a legal descriptor, SHDLC_RX delivers exactly what the dynamic decoder makes of the data, with the data on DOUT, and
raises DECODE_LEN where that decoder runs short, which leaves DEVSTATE 0 (the model's reading: notes/assumptions/10.md). On at
least `rx_length` data bytes it never does: there is one value for each field. -/
def Obligations.ShdlcRxCompletes : Prop :=
  ∀ (s : State) (d : Descr),
    s.ports.ea = s.ports.sa → s.ports.ec = s.ports.sc → s.ports.es.toNat % 128 = 0 →
    s.ports.desc ≠ [] → validate .rx s.ports.desc = .ok d →
    (∀ vs : List Value, dynDecode d s.ports.din = .ok vs →
      exec .shdlcRx s = .next { s with
        dout := s.ports.din, vout := some vs, rdata := 0, errInfo := 0
        status := if 128 ≤ s.ports.es.toNat then 0x00000C00 else 0x00000800 }) ∧
    (∀ (c : Nat) (f : Byte), dynDecode d s.ports.din = .error (.decodeLen c f) →
      ∃ log, exec .shdlcRx s = .next { s with
        status := 0x00000014, errInfo := BitVec.ofNat 32 (c % 65536 + f.toNat * 65536),
        dout := [], vout := none, rdata := 0, errLog := log }) ∧
    (rxLength d ≤ s.ports.din.length →
      ∃ vs, dynDecode d s.ports.din = .ok vs ∧
        exec .shdlcRx s = .next { s with
          dout := s.ports.din, vout := some vs, rdata := 0, errInfo := 0
          status := if 128 ≤ s.ports.es.toNat then 0x00000C00 else 0x00000800 } ∧
        vs.length = d.fields.length)

/-! ## Registers -/

/-- R220: RDREG answers the register at its address and changes no register; an unmapped address raises ILLEGAL_REG. -/
def Obligations.RdregReadsRegister : Prop :=
  ∀ (addr : Byte) (s : State),
    (addr = 0 → exec (.rdreg addr) s = .next { s with rdata := s.ctrl, dout := [], vout := none }) ∧
    (addr = 1 → exec (.rdreg addr) s = .next { s with rdata := s.crcCfg, dout := [], vout := none }) ∧
    (addr = 2 → exec (.rdreg addr) s = .next { s with rdata := s.status, dout := [], vout := none }) ∧
    (addr = 3 → exec (.rdreg addr) s = .next { s with rdata := s.errInfo, dout := [], vout := none }) ∧
    (3 < addr.toNat → ∃ log, exec (.rdreg addr) s = .next { s with
      status := 0x00000011, errInfo := BitVec.ofNat 32 addr.toNat, dout := [], vout := none, rdata := 0,
      errLog := log })

/-- 44_register_access.md (R221): WRREG writes CRC_EN, or POLY, INIT and XOROUT with WIDTH staying 8; a write of STATUS or
ERR_INFO is accepted and ignored; an unmapped address raises ILLEGAL_REG; and the state a write of CRC_CFG leaves has the
checksum function of the new parameters, which is XOROUT for every pair where POLY is 0, a corner case that the spec marks as
derived from R151. -/
def Obligations.WrregWritesRegister : Prop :=
  ∀ (addr : Byte) (s : State),
    (addr = 0 → exec (.wrreg addr) s = .next { s with
      ctrl := BitVec.ofNat 32 (s.ports.wdata.toNat % 2), dout := [], vout := none, rdata := 0 }) ∧
    (addr = 1 → exec (.wrreg addr) s = .next { s with
      crcCfg := BitVec.ofNat 32 (0x08000000 + s.ports.wdata.toNat % 0x1000000), dout := [], vout := none, rdata := 0 }) ∧
    ((addr = 2 ∨ addr = 3) → exec (.wrreg addr) s = .next { s with dout := [], vout := none, rdata := 0 }) ∧
    (3 < addr.toNat → ∃ log, exec (.wrreg addr) s = .next { s with
      status := 0x00000011, errInfo := BitVec.ofNat 32 (256 + addr.toNat), dout := [], vout := none, rdata := 0,
      errLog := log }) ∧
    (∀ t, exec (.wrreg 1) s = .next t → ∀ a b : Byte,
      t.crcFn a b = crc8 (s.ports.wdata.extractLsb' 0 8) (s.ports.wdata.extractLsb' 8 8) (s.ports.wdata.extractLsb' 16 8) a b ∧
      (s.ports.wdata.extractLsb' 0 8 = 0 → t.crcFn a b = s.ports.wdata.extractLsb' 16 8))

/-- 70_reset_and_hazards.md (R273), 20_memory.md section 5 (R62): "Each command sees every register write of every earlier
command": the checksum parameters that a WRREG of CRC_CFG sets are those of the very next CRCCALC. -/
def Obligations.NextCommandSeesRegisterWrite : Prop :=
  ∀ (s t u : State) (poly init xorOut a b : Byte) (p : Ports) (rest : List HostEvent),
    p.cmd = encode .crccalc → p.din = [a, b] → p.desc = [] → 2 ≤ s.config.maxLen.toNat →
    s.hostQueue = .issue (expandPseudo (.crcSet poly init xorOut)) :: .issue p :: rest →
    step s = .next t → step t = .next u →
    u.rdata = BitVec.setWidth 32 (crc8 poly init xorOut a b) ∧
      u.crcCfg.toNat = 0x08000000 + xorOut.toNat * 65536 + init.toNat * 256 + poly.toNat ∧ u.ctrl = s.ctrl

/-- 30_encoding.md section 4 (R95): each pseudo-instruction, issued, does what its name says. -/
def Obligations.PseudoInstructionsTakeEffect : Prop :=
  ∀ (s : State) (x : Pseudo) (rest : List HostEvent), s.hostQueue = .issue (expandPseudo x) :: rest →
    ∃ t, step s = .next t ∧ t.status = s.status ∧ t.errInfo = s.errInfo ∧ t.dout = [] ∧ t.vout = none ∧
      (∀ poly init xorOut, x = .crcSet poly init xorOut → t.ctrl = s.ctrl ∧
        t.crcCfg.toNat = 0x08000000 + xorOut.toNat * 65536 + init.toNat * 256 + poly.toNat) ∧
      (x = .crcOn → t.ctrl = 1 ∧ t.crcCfg = s.crcCfg) ∧ (x = .crcOff → t.ctrl = 0 ∧ t.crcCfg = s.crcCfg) ∧
      (x = .rdStatus → t.rdata = s.status ∧ t.ctrl = s.ctrl ∧ t.crcCfg = s.crcCfg) ∧
      (x = .rdErr → t.rdata = s.errInfo ∧ t.ctrl = s.ctrl ∧ t.crcCfg = s.crcCfg)

/-! ## The whole machine -/

/-- 20_memory.md section 3, 60_exceptions.md section 3 (R59, R255): no command but WRREG changes CTRL or CRC_CFG, and no
command changes the operand ports, what the host does next or the configuration. -/
def Obligations.OnlyWrregChangesParameters : Prop :=
  ∀ (i : Instr) (s t : State), exec i s = .next t →
    t.ports = s.ports ∧ t.hostQueue = s.hostQueue ∧ t.config = s.config ∧
      ((∀ a, i ≠ .wrreg a) → t.ctrl = s.ctrl ∧ t.crcCfg = s.crcCfg)

/-- 60_exceptions.md section 3 (R255): a command that ends in an error writes STATUS, ERR_INFO and the result ports as the
rule says, and nothing else but the model's own log (notes/assumptions/3.md). An error is seen in the log, which a success
leaves alone. -/
def Obligations.ErrorWritesOnlyResults : Prop :=
  ∀ (i : Instr) (s t : State), exec i s = .next t →
    (t.errLog = s.errLog → isRegAccess i = false → statusErr t.status = 0 ∧ t.errInfo = 0) ∧
    (t.errLog ≠ s.errLog → ∃ e, t = { s with
      status := e.code.setWidth 32 ||| (match e with
        | .device es => if es.getLsbD 7 then 0x00000400 else 0
        | _ => 0)
      errInfo := e.info
      dout := match e with
        | .checksum _ _ _ => s.ports.din
        | _ => []
      vout := none
      rdata := 0
      errLog := e :: s.errLog })

/-- 60_exceptions.md section 1 (R241): each command ends only with the errors that the table lists for it, and each error
shows its code in STATUS.ERR. An error is seen in the model's own log (notes/assumptions/3.md). -/
def Obligations.ErrorsRaisedByCommand : Prop :=
  ∀ (i : Instr) (s t : State), exec i s = .next t →
    t.errLog = s.errLog ∨ ∃ e, t.errLog = e :: s.errLog ∧ e.code ∈ raisableCodes i ∧ statusErr t.status = e.code

/-- 10_state.md section 4 (R28): which commands can leave each flag set. -/
def Obligations.FlagsSetByCommand : Prop :=
  ∀ (i : Instr) (s t : State), isRegAccess i = false → exec i s = .next t →
    (statusTrunc t.status = true → i = .pack ∨ i = .i2cTx) ∧
    (statusNodata t.status = true → (i = .deframe ∨ i = .i2cRx) ∧ s.ctrl.getLsbD 0 = true ∧ t.dout = []) ∧
    (statusDevstate t.status = true → (i = .shdlcCheck ∨ i = .shdlcRx) ∧ s.ports.es.getLsbD 7 = true) ∧
    (statusDyn t.status = true →
      (i = .unpack ∨ i = .unpackDyn ∨ i = .i2cRx ∨ i = .shdlcRx) ∧ statusErr t.status = 0 ∧ t.vout ≠ none)

/-- 10_state.md section 4, 20_memory.md section 3 (R28, R59): no command's results depend on an earlier command's flags,
error information or result ports: CTRL, CRC_CFG and the operand ports decide them, but for RDREG of STATUS and ERR_INFO. -/
def Obligations.ResultsIgnoreEarlierStatus : Prop :=
  ∀ (i : Instr) (s s' t : State),
    s'.ctrl = s.ctrl → s'.crcCfg = s.crcCfg → s'.ports = s.ports → i ≠ .rdreg 2 → i ≠ .rdreg 3 →
    exec i s = .next t →
    ∃ t', exec i s' = .next t' ∧ t'.dout = t.dout ∧ t'.vout = t.vout ∧ t'.rdata = t.rdata ∧ t'.ctrl = t.ctrl ∧
      t'.crcCfg = t.crcCfg ∧ (isRegAccess i = false → t'.status = t.status ∧ t'.errInfo = t.errInfo)

/-- 20_memory.md section 3 (R59): a command issued again with the same ports gives the same results and registers. -/
def Obligations.RepeatedCommandSameResults : Prop :=
  ∀ (i : Instr) (s t u : State), exec i s = .next t → exec i t = .next u →
    u.dout = t.dout ∧ u.vout = t.vout ∧ u.rdata = t.rdata ∧ u.status = t.status ∧ u.errInfo = t.errInfo ∧
      u.ctrl = t.ctrl ∧ u.crcCfg = t.crcCfg
end

