-- ==== Sys2Proof/Laws/State.lean ====
section
/-! SUPPORT. One lemma per field of each update of the state, so that no proof unfolds an update. -/

namespace Sys2Proof.Machine

/-! ## succeed -/

@[simp] theorem succeed_ctrl (s : State) (o : Output) : (s.succeed o).ctrl = s.ctrl := rfl

@[simp] theorem succeed_crcCfg (s : State) (o : Output) : (s.succeed o).crcCfg = s.crcCfg := rfl

@[simp] theorem succeed_status (s : State) (o : Output) : (s.succeed o).status = statusWord 0 o.flags := rfl

@[simp] theorem succeed_errInfo (s : State) (o : Output) : (s.succeed o).errInfo = 0 := rfl

@[simp] theorem succeed_dout (s : State) (o : Output) : (s.succeed o).dout = o.dout := rfl

@[simp] theorem succeed_vout (s : State) (o : Output) : (s.succeed o).vout = o.vout := rfl

@[simp] theorem succeed_rdata (s : State) (o : Output) : (s.succeed o).rdata = o.rdata := rfl

@[simp] theorem succeed_ports (s : State) (o : Output) : (s.succeed o).ports = s.ports := rfl

@[simp] theorem succeed_hostQueue (s : State) (o : Output) : (s.succeed o).hostQueue = s.hostQueue := rfl

@[simp] theorem succeed_config (s : State) (o : Output) : (s.succeed o).config = s.config := rfl

@[simp] theorem succeed_errLog (s : State) (o : Output) : (s.succeed o).errLog = s.errLog := rfl

/-! ## raise -/

@[simp] theorem raise_ctrl (s : State) (e : BlockError) : (s.raise e).ctrl = s.ctrl := rfl

@[simp] theorem raise_crcCfg (s : State) (e : BlockError) : (s.raise e).crcCfg = s.crcCfg := rfl

@[simp] theorem raise_status (s : State) (e : BlockError) : (s.raise e).status = statusWord e.code e.flags := rfl

@[simp] theorem raise_errInfo (s : State) (e : BlockError) : (s.raise e).errInfo = e.info := rfl

@[simp] theorem raise_dout (s : State) (e : BlockError) : (s.raise e).dout = (match e with | .checksum _ _ _ => s.ports.din | _ => []) := rfl

@[simp] theorem raise_vout (s : State) (e : BlockError) : (s.raise e).vout = none := rfl

@[simp] theorem raise_rdata (s : State) (e : BlockError) : (s.raise e).rdata = 0 := rfl

@[simp] theorem raise_ports (s : State) (e : BlockError) : (s.raise e).ports = s.ports := rfl

@[simp] theorem raise_hostQueue (s : State) (e : BlockError) : (s.raise e).hostQueue = s.hostQueue := rfl

@[simp] theorem raise_config (s : State) (e : BlockError) : (s.raise e).config = s.config := rfl

@[simp] theorem raise_errLog (s : State) (e : BlockError) : (s.raise e).errLog = e :: s.errLog := rfl

/-! ## respond -/

@[simp] theorem respond_ctrl (s : State) (r : Word) : (s.respond r).ctrl = s.ctrl := rfl

@[simp] theorem respond_crcCfg (s : State) (r : Word) : (s.respond r).crcCfg = s.crcCfg := rfl

@[simp] theorem respond_status (s : State) (r : Word) : (s.respond r).status = s.status := rfl

@[simp] theorem respond_errInfo (s : State) (r : Word) : (s.respond r).errInfo = s.errInfo := rfl

@[simp] theorem respond_dout (s : State) (r : Word) : (s.respond r).dout = [] := rfl

@[simp] theorem respond_vout (s : State) (r : Word) : (s.respond r).vout = none := rfl

@[simp] theorem respond_rdata (s : State) (r : Word) : (s.respond r).rdata = r := rfl

@[simp] theorem respond_ports (s : State) (r : Word) : (s.respond r).ports = s.ports := rfl

@[simp] theorem respond_hostQueue (s : State) (r : Word) : (s.respond r).hostQueue = s.hostQueue := rfl

@[simp] theorem respond_config (s : State) (r : Word) : (s.respond r).config = s.config := rfl

@[simp] theorem respond_errLog (s : State) (r : Word) : (s.respond r).errLog = s.errLog := rfl

/-! ## applyReset -/

@[simp] theorem applyReset_ctrl (s : State) : (s.applyReset).ctrl = 0x00000000 := rfl

@[simp] theorem applyReset_crcCfg (s : State) : (s.applyReset).crcCfg = 0x0800FF31 := rfl

@[simp] theorem applyReset_status (s : State) : (s.applyReset).status = 0x00000000 := rfl

@[simp] theorem applyReset_errInfo (s : State) : (s.applyReset).errInfo = 0x00000000 := rfl

@[simp] theorem applyReset_dout (s : State) : (s.applyReset).dout = [] := rfl

@[simp] theorem applyReset_vout (s : State) : (s.applyReset).vout = none := rfl

@[simp] theorem applyReset_rdata (s : State) : (s.applyReset).rdata = 0 := rfl

@[simp] theorem applyReset_ports (s : State) : (s.applyReset).ports = s.ports := rfl

@[simp] theorem applyReset_hostQueue (s : State) : (s.applyReset).hostQueue = s.hostQueue := rfl

@[simp] theorem applyReset_config (s : State) : (s.applyReset).config = s.config := rfl

@[simp] theorem applyReset_errLog (s : State) : (s.applyReset).errLog = [] := rfl

/-! ## withDin -/

@[simp] theorem withDin_ctrl (s : State) (b : List Byte) : (s.withDin b).ctrl = s.ctrl := rfl

@[simp] theorem withDin_crcCfg (s : State) (b : List Byte) : (s.withDin b).crcCfg = s.crcCfg := rfl

@[simp] theorem withDin_status (s : State) (b : List Byte) : (s.withDin b).status = s.status := rfl

@[simp] theorem withDin_errInfo (s : State) (b : List Byte) : (s.withDin b).errInfo = s.errInfo := rfl

@[simp] theorem withDin_dout (s : State) (b : List Byte) : (s.withDin b).dout = s.dout := rfl

@[simp] theorem withDin_vout (s : State) (b : List Byte) : (s.withDin b).vout = s.vout := rfl

@[simp] theorem withDin_rdata (s : State) (b : List Byte) : (s.withDin b).rdata = s.rdata := rfl

@[simp] theorem withDin_ports (s : State) (b : List Byte) : (s.withDin b).ports = { s.ports with din := b } := rfl

@[simp] theorem withDin_hostQueue (s : State) (b : List Byte) : (s.withDin b).hostQueue = s.hostQueue := rfl

@[simp] theorem withDin_config (s : State) (b : List Byte) : (s.withDin b).config = s.config := rfl

@[simp] theorem withDin_errLog (s : State) (b : List Byte) : (s.withDin b).errLog = s.errLog := rfl

/-! ## writeReg: only CTRL and CRC_CFG can change -/

@[simp] theorem writeReg_status (s : State) (r : Reg) (v : Word) : (s.writeReg r v).status = s.status := by
  cases r <;> rfl

@[simp] theorem writeReg_errInfo (s : State) (r : Reg) (v : Word) : (s.writeReg r v).errInfo = s.errInfo := by
  cases r <;> rfl

@[simp] theorem writeReg_dout (s : State) (r : Reg) (v : Word) : (s.writeReg r v).dout = s.dout := by
  cases r <;> rfl

@[simp] theorem writeReg_vout (s : State) (r : Reg) (v : Word) : (s.writeReg r v).vout = s.vout := by
  cases r <;> rfl

@[simp] theorem writeReg_rdata (s : State) (r : Reg) (v : Word) : (s.writeReg r v).rdata = s.rdata := by
  cases r <;> rfl

@[simp] theorem writeReg_ports (s : State) (r : Reg) (v : Word) : (s.writeReg r v).ports = s.ports := by
  cases r <;> rfl

@[simp] theorem writeReg_hostQueue (s : State) (r : Reg) (v : Word) : (s.writeReg r v).hostQueue = s.hostQueue := by
  cases r <;> rfl

@[simp] theorem writeReg_config (s : State) (r : Reg) (v : Word) : (s.writeReg r v).config = s.config := by
  cases r <;> rfl

@[simp] theorem writeReg_errLog (s : State) (r : Reg) (v : Word) : (s.writeReg r v).errLog = s.errLog := by
  cases r <;> rfl

/-- R221: what a write leaves in CTRL. -/
theorem writeReg_ctrl (s : State) (r : Reg) (v : Word) :
    (s.writeReg r v).ctrl = if r = .ctrl then v &&& 0x00000001 else s.ctrl := by
  cases r <;> rfl

/-- R221: what a write leaves in CRC_CFG. -/
theorem writeReg_crcCfg (s : State) (r : Reg) (v : Word) :
    (s.writeReg r v).crcCfg = if r = .crcCfg then 0x08000000 ||| (v &&& 0x00FFFFFF) else s.crcCfg := by
  cases r <;> rfl

@[simp] theorem withDin_crcEn (s : State) (b : List Byte) : (s.withDin b).crcEn = s.crcEn := rfl

@[simp] theorem withDin_crcFn (s : State) (b : List Byte) : (s.withDin b).crcFn = s.crcFn := rfl

@[simp] theorem withDin_checksumFn (s : State) (b : List Byte) : (s.withDin b).checksumFn = s.checksumFn := rfl

end Sys2Proof.Machine
end

