-- ==== Sys2Proof/Laws/Ops.lean ====
section
/-! SUPPORT. What each shared operation of Machine/Ops.lean and Machine/Fetch.lean can do, said once. -/

namespace Sys2Proof.Machine

@[simp] theorem complete_ok (s : State) (o : Output) : s.complete (.ok o) = s.succeed o := rfl

@[simp] theorem complete_error (s : State) (e : BlockError) : s.complete (.error e) = s.raise e := rfl

/-- A command that completes either raises the error its body came to or delivers its output. -/
theorem complete_cases (s : State) (r : Except BlockError Output) :
    (∃ e, r = .error e ∧ s.complete r = s.raise e) ∨ (∃ o, r = .ok o ∧ s.complete r = s.succeed o) := by
  cases r with
  | error e => exact .inl ⟨e, rfl, rfl⟩
  | ok o => exact .inr ⟨o, rfl, rfl⟩

/-- No completion touches the registers that hold parameters, the ports, the host or the configuration. -/
theorem complete_frame (s : State) (r : Except BlockError Output) :
    (s.complete r).ctrl = s.ctrl ∧ (s.complete r).crcCfg = s.crcCfg ∧ (s.complete r).ports = s.ports ∧
      (s.complete r).hostQueue = s.hostQueue ∧ (s.complete r).config = s.config := by
  cases r <;> exact ⟨rfl, rfl, rfl, rfl, rfl⟩

/-! ## Registers -/

/-- R23, R60: an address is that of one of the four registers or is unmapped. -/
theorem regAt_cases (addr : Byte) :
    (addr = 0 ∧ regAt addr = some .ctrl) ∨ (addr = 1 ∧ regAt addr = some .crcCfg) ∨
      (addr = 2 ∧ regAt addr = some .status) ∨ (addr = 3 ∧ regAt addr = some .errInfo) ∨
      (3 < addr.toNat ∧ regAt addr = none) := by
  revert addr
  decide

/-- RDREG answers a register or raises ILLEGAL_REG. -/
theorem execRdreg_cases (addr : Byte) (s : State) :
    (∃ r, regAt addr = some r ∧ execRdreg addr s = .next (s.respond (s.readReg r))) ∨
      (regAt addr = none ∧ execRdreg addr s = .next (s.raise (.illegalReg addr false))) := by
  unfold execRdreg
  cases h : regAt addr with
  | none => exact .inr ⟨rfl, rfl⟩
  | some r => exact .inl ⟨r, rfl, rfl⟩

/-- WRREG writes a register or raises ILLEGAL_REG. -/
theorem execWrreg_cases (addr : Byte) (s : State) :
    (∃ r, regAt addr = some r ∧ execWrreg addr s = .next ((s.writeReg r s.ports.wdata).respond 0)) ∨
      (regAt addr = none ∧ execWrreg addr s = .next (s.raise (.illegalReg addr true))) := by
  unfold execWrreg
  cases h : regAt addr with
  | none => exact .inr ⟨rfl, rfl⟩
  | some r => exact .inl ⟨r, rfl, rfl⟩

/-! ## Commands -/

/-- The body of a command that is no register access, on the state it finds. -/
def bodyOf (s : State) : Instr → Except BlockError Output
  | .crccalc => crccalcBody s.crcFn s.ports.din
  | .frame h => frameBody s.checksumFn h s.ports.din
  | .deframe => deframeBody s.checksumFn s.ports.din
  | .rxlen => rxlenBody s.crcEn s.ports
  | .pack => packBody s.ports
  | .unpack => unpackBody s.ports
  | .unpackDyn => unpackDynBody s.ports
  | .shdlcCheck => shdlcCheckBody s.ports
  | .shdlcRx => shdlcRxBody s.ports
  | .i2cTx => i2cTxBody s.checksumFn s.ports
  | .i2cRx => i2cRxBody s.checksumFn s.ports
  | .rdreg _ => .ok {}
  | .wrreg _ => .ok {}

/-- Every command that is no register access completes with what its body came to. -/
theorem exec_eq_complete (i : Instr) (s : State) (h : isRegAccess i = false) :
    exec i s = .next (s.complete (bodyOf s i)) := by
  cases i <;> first | rfl | simp [isRegAccess] at h

/-- The outcomes of a command: it completes, or it is a register access that responds or raises ILLEGAL_REG. -/
theorem exec_cases (i : Instr) (s : State) :
    (isRegAccess i = false ∧ exec i s = .next (s.complete (bodyOf s i))) ∨
      (∃ addr, i = .rdreg addr ∧ exec i s = execRdreg addr s) ∨
      (∃ addr, i = .wrreg addr ∧ exec i s = execWrreg addr s) := by
  cases i with
  | rdreg addr => exact .inr (.inl ⟨addr, rfl, rfl⟩)
  | wrreg addr => exact .inr (.inr ⟨addr, rfl, rfl⟩)
  | _ => exact .inl ⟨rfl, rfl⟩

/-! ## The step -/

@[simp] theorem portsFit_eq (s : State) :
    s.portsFit = decide (s.ports.din.length ≤ s.config.maxLen.toNat ∧ s.ports.desc.length ≤ s.config.maxLen.toNat) := rfl

/-- A command runs in one of three ways: refused for its ports, illegal, or decoded. -/
theorem runCommand_cases (s : State) :
    (s.portsFit = false ∧ runCommand s = .refused .portTooLong) ∨
      (s.portsFit = true ∧ (∃ r, decodeWord s.ports.cmd = .error r) ∧
        runCommand s = .next (s.raise (.illegalCmd s.ports.cmd))) ∨
      (s.portsFit = true ∧ ∃ i, decodeWord s.ports.cmd = .ok i ∧ runCommand s = exec i s) := by
  unfold runCommand
  cases hp : s.portsFit with
  | false => exact .inl ⟨rfl, by simp⟩
  | true =>
    cases hd : decodeWord s.ports.cmd with
    | error r => exact .inr (.inl ⟨rfl, ⟨r, rfl⟩, by simp⟩)
    | ok i => exact .inr (.inr ⟨rfl, i, rfl, by simp⟩)

theorem step_idle (s : State) (h : s.hostQueue = []) : step s = .next s := by
  simp [step, runNext, State.arrival, h]

theorem step_reset (s : State) (rest : List HostEvent) (h : s.hostQueue = .reset :: rest) :
    step s = .next (State.applyReset { s with hostQueue := rest }) := by
  simp [step, runNext, State.arrival, h]

theorem step_issue (s : State) (p : Ports) (rest : List HostEvent) (h : s.hostQueue = .issue p :: rest) :
    step s = runCommand { s with ports := p, hostQueue := rest } := by
  simp [step, runNext, State.arrival, h]

/-- The next command is the one that `withFetchWord` places. -/
theorem step_withFetchWord (s : State) (nbits w : Nat) :
    step (s.withFetchWord nbits w) =
      runCommand { s with ports := { s.nextPorts with cmd := tableWord nbits w }, hostQueue := s.hostQueue.tail } := by
  simp [step, runNext, State.arrival, State.withFetchWord, State.issueWord]

end Sys2Proof.Machine
end

