-- ==== Sys2Proof/Laws/Codec.lean ====
section
/-! SUPPORT. What the operations of the field codec can do, said once: byte order, the descriptor's codes, packing,
decoding and the scans. -/

namespace Sys2Proof.Machine

/-! ## Bytes -/

@[simp] theorem bytesBE_length (n u : Nat) : (bytesBE n u).length = n := by
  induction n with
  | zero => rfl
  | succ n ih => simp [bytesBE, ih]

@[simp] theorem bytesLE_length (n u : Nat) : (bytesLE n u).length = n := by
  induction n generalizing u with
  | zero => rfl
  | succ n ih => simp [bytesLE, ih]

theorem zext_lt (n : Nat) (v : Int) : zext n v < 2 ^ n := by
  have h : (0 : Int) < 2 ^ n := by positivity
  have h1 := Int.emod_lt_of_pos v h
  have h2 := Int.emod_nonneg v h.ne'
  unfold zext
  zify
  rw [Int.toNat_of_nonneg h2]
  exact h1

@[simp] theorem memRead_length (bs : List Byte) (c n : Nat) (h : c + n ≤ bs.length) : (memRead bs c n).length = n := by
  simp [memRead]
  omega

/-! ## Codes -/

@[simp] theorem etypeOf_code (e : EType) : etypeOf (etypeCode e) = some e := by cases e <;> rfl

@[simp] theorem shapeOf_code (sh : Shape) : shapeOf (shapeCode sh) = some sh := by cases sh <;> rfl

theorem etypeSize_pos (e : EType) : 0 < etypeSize e := by cases e <;> decide

/-- The integer types of R78, as the model and as WellFormed list them. -/
theorem isInt_eq_contains (e : EType) : isInt e = integerTypes.contains e := by cases e <;> rfl

/-! ## The descriptor -/

/-- A field that passes its checks is the field that was read. -/
theorem checkField_ok (use : Use) (i strings : Nat) (f g : Field) (h : checkField use i strings f = .ok g) : g = f := by
  unfold checkField at h
  split_ifs at h
  exact (Except.ok.inj h).symm

/-- A field's checks fail only with USAGE at that field. -/
theorem checkField_error (use : Use) (i strings : Nat) (f : Field) (e : BlockError)
    (h : checkField use i strings f = .error e) : ∃ cause, e = fieldUsage cause i := by
  unfold checkField at h
  split_ifs at h <;> exact ⟨_, (Except.error.inj h).symm⟩

theorem parseField_error (use : Use) (i strings : Nat) (t c : Byte) (e : BlockError)
    (h : parseField use i strings t c = .error e) : ∃ cause, e = fieldUsage cause i := by
  unfold parseField at h
  split at h
  · exact ⟨_, (Except.error.inj h).symm⟩
  · split at h
    · exact checkField_error _ _ _ _ _ h
    · exact ⟨_, (Except.error.inj h).symm⟩

/-- The fields' checks fail only with USAGE. -/
theorem parseFields_error (use : Use) (bytes : List Byte) : ∀ (i strings : Nat) (e : BlockError),
    parseFields use i strings bytes = .error e → ∃ cause field, e = .usage cause field := by
  intro i strings
  induction i, strings, bytes using parseFields.induct (use := use) with
  | case1 i strings t c rest e' h => 
    intro e he
    rw [parseFields, h] at he
    obtain ⟨cause, rfl⟩ := parseField_error _ _ _ _ _ _ h
    exact ⟨cause, _, (Except.error.inj he).symm⟩
  | case2 i strings t c rest f h e' h2 ih =>
    intro e he
    simp only [parseFields, h, h2] at he
    exact ih e (h2.trans he)
  | case3 i strings t c rest f h fs h2 ih => 
    intro e he
    simp [parseFields, h, h2] at he
  | case4 => intro e he; simp_all [parseFields]

/-- Validation fails only with USAGE (R85). -/
theorem validate_error (use : Use) (bytes : List Byte) (e : BlockError) (h : validate use bytes = .error e) :
    ∃ cause field, e = .usage cause field := by
  unfold validate at h
  split at h
  · split_ifs at h
    · exact ⟨_, _, (Except.error.inj h).symm⟩
    · exact ⟨_, _, (Except.error.inj h).symm⟩
    · exact ⟨_, _, (Except.error.inj h).symm⟩
    · split at h
      · rename_i hp
        obtain rfl := Except.error.inj h
        exact parseFields_error _ _ _ _ _ hp
      · exact absurd h (by simp)
  · exact ⟨_, _, (Except.error.inj h).symm⟩

/-! ## Packing -/

/-- Every way packing can end, in the order of its checks (R114). -/
theorem packArgs_cases (d : Descr) (cmdid : Nat) (vin : List Value) :
    (2 ^ (8 * cmdWidth d) ≤ cmdid ∧ packArgs d cmdid vin = .error (.packRange 0 true)) ∨
    (cmdid < 2 ^ (8 * cmdWidth d) ∧ (
      (∃ e, flatten vin = .error e ∧ packArgs d cmdid vin = .error e) ∨
      (∃ args, flatten vin = .ok args ∧ (
        (args.length ≠ (slots d).length ∧
          packArgs d cmdid vin = .error (.packArg (min args.length (slots d).length) true)) ∨
        (args.length = (slots d).length ∧ (
          (∃ e, checkSlots 0 (slots d) args = some e ∧ packArgs d cmdid vin = .error e) ∨
          (checkSlots 0 (slots d) args = none ∧
            packArgs d cmdid vin = .ok
              { bytes := enc d.order (cmdWidth d) cmdid ++ encSlots d.order (slots d) args
                width := cmdWidth d
                trunc := anyTruncates (slots d) args })))))) ) := by
  unfold packArgs
  by_cases h : cmdid ≥ 2 ^ (8 * cmdWidth d)
  · exact .inl ⟨h, by simp [h]⟩
  · refine .inr ⟨by omega, ?_⟩
    rw [if_neg h]
    cases hf : flatten vin with
    | error e => exact .inl ⟨e, rfl, rfl⟩
    | ok args =>
      refine .inr ⟨args, rfl, ?_⟩
      by_cases hl : args.length ≠ (slots d).length
      · exact .inl ⟨hl, by simp [hl]⟩
      · rw [not_not] at hl
        refine .inr ⟨hl, ?_⟩
        cases hc : checkSlots 0 (slots d) args with
        | some e => exact .inl ⟨e, rfl, by simp [hl, hc]⟩
        | none => exact .inr ⟨rfl, by simp [hl, hc]⟩

/-- A slot's check passes exactly when the slot accepts the value (R111, R112). -/
theorem checkSlot_none_iff (k : Nat) (sl : Slot) (v : Value) : checkSlot k sl v = none ↔ slotAccepts sl v := by
  unfold checkSlot slotAccepts
  cases kindOk sl v <;> cases rangeOk sl v <;> simp

/-! ## Decoding -/

/-- A decode ends with the decoder's error, or delivers its values with DYN as asked (R122). -/
theorem decodeAs_cases (dyn : Bool) (d : Descr) (bs : List Byte) :
    (∃ e, (if dyn then dynDecode d bs else fixedDecode d bs) = .error e ∧ decodeAs dyn d bs = .error e) ∨
    (∃ vs, (if dyn then dynDecode d bs else fixedDecode d bs) = .ok vs ∧
      decodeAs dyn d bs = .ok { vout := some vs, flags := { dyn := dyn } }) := by
  unfold decodeAs
  cases h : (if dyn then dynDecode d bs else fixedDecode d bs) with
  | error e => exact .inl ⟨e, rfl, rfl⟩
  | ok vs => exact .inr ⟨vs, rfl, rfl⟩

/-- An array scan moves the cursor forward by whole elements, at most `count` of them (R118). -/
theorem scanArray_cursor (o : Order) (e : EType) (bs : List Byte) (count c : Nat) :
    (scanArray o e bs count c).2 = c + (scanArray o e bs count c).1.length * etypeSize e ∧
      (scanArray o e bs count c).1.length ≤ count := by
  induction count generalizing c with
  | zero => simp [scanArray]
  | succ count ih =>
    unfold scanArray
    split
    · obtain ⟨h1, h2⟩ := ih (c + etypeSize e)
      refine ⟨?_, by simp only [List.length_cons]; omega⟩
      simp only [List.length_cons]
      rw [h1, Nat.add_mul, Nat.one_mul]
      omega
    · simp

/-- A string scan moves the cursor forward past its bytes, and past one zero byte at most, within `count` (R119). -/
theorem scanString_cursor (bs : List Byte) (count c : Nat) :
    c + (scanString bs count c).1.length ≤ (scanString bs count c).2 ∧
      (scanString bs count c).2 ≤ c + (scanString bs count c).1.length + 1 ∧ (scanString bs count c).2 ≤ c + count := by
  induction count generalizing c with
  | zero => simp [scanString]
  | succ count ih =>
    unfold scanString
    split
    · simp
    · split
      · simp
      · obtain ⟨h1, h2, h3⟩ := ih (c + 1)
        simp only [List.length_cons]
        omega

/-- Every way a field's dynamic decode can end (R117). -/
theorem dynField_cases (o : Order) (bs : List Byte) (i c : Nat) (f : Field) :
    (f.shape = .scalar ∧ bs.length < c + etypeSize f.etype ∧
      dynField o bs i c f = .error (.decodeLen c (BitVec.ofNat 8 i))) ∨
    (f.shape = .scalar ∧ c + etypeSize f.etype ≤ bs.length ∧
      dynField o bs i c f =
        .ok (decScalar o f.etype (memRead bs c (etypeSize f.etype)), c + etypeSize f.etype)) ∨
    (f.shape = .array ∧
      dynField o bs i c f =
        .ok (arrValue (scanArray o f.etype bs f.count.toNat c).1 f.fold f.etype,
          (scanArray o f.etype bs f.count.toNat c).2)) ∨
    (f.shape = .string ∧
      dynField o bs i c f =
        .ok (strValue (scanString bs f.count.toNat c).1, (scanString bs f.count.toNat c).2)) := by
  unfold dynField
  cases hs : f.shape with
  | scalar =>
    by_cases h : c + etypeSize f.etype > bs.length
    · exact .inl ⟨rfl, h, by simp [h]⟩
    · exact .inr (.inl ⟨rfl, by omega, by simp [h]⟩)
  | array => exact .inr (.inr (.inl ⟨rfl, rfl⟩))
  | string => exact .inr (.inr (.inr ⟨rfl, rfl⟩))

/-- The walk over the fields fails only with DECODE_LEN (R117). -/
theorem dynFields_error (o : Order) (bs : List Byte) (fs : List Field) (i c : Nat) (e : BlockError)
    (h : dynFields o bs i c fs = .error e) : ∃ c' f, e = .decodeLen c' f := by
  induction fs generalizing i c with
  | nil => simp [dynFields] at h
  | cons f fs ih =>
    unfold dynFields at h
    obtain ⟨-, -, hf⟩ | ⟨-, -, hf⟩ | ⟨-, hf⟩ | ⟨-, hf⟩ := dynField_cases o bs i c f <;> rw [hf] at h
    · exact ⟨c, _, (Except.error.inj h).symm⟩
    all_goals
      simp only at h
      split at h
      · rename_i he
        exact ih _ _ (he.trans h)
      · cases h

end Sys2Proof.Machine
end

