-- ==== Sys2Proof/Laws/Framer.lean ====
section
/-! SUPPORT. What the operations of the framer and of the SHDLC check can do, said once. -/

namespace Sys2Proof.Machine

/-- One inner step of the register multiplies it by `x` modulo `x^8 + POLY` (R151). -/
theorem crcShift_one_eq_mul_x (poly r : Byte) :
    r.setWidth 24 <<< 1 =
      (if r.getLsbD 7 then (1#16 ++ poly : BitVec 24) else 0) ^^^ (crcShift poly 1 r).setWidth 24 := by
  have xor_cancel : ∀ a b : Bool, a = (b ^^ (a ^^ b)) := by decide
  simp only [crcShift]
  refine BitVec.eq_of_getLsbD_eq fun i hi => ?_
  split <;> rename_i h <;>
    simp only [BitVec.getLsbD_xor, BitVec.getLsbD_append, BitVec.getLsbD_shiftLeft, BitVec.getLsbD_setWidth] <;>
    interval_cases i <;> simp at h ⊢ <;> first | exact h | exact xor_cancel _ _

/-- The checksum function the framer uses, by CTRL.CRC_EN (R152). -/
theorem checksumFn_eq (s : State) : s.checksumFn = if s.ctrl.getLsbD 0 then some s.crcFn else none := rfl

/-- Framing passes the bytes through without a checksum function, and otherwise refuses what cannot be grouped (R154). -/
theorem frameBytes_cases (fn : Option (Byte → Byte → Byte)) (h : Nat) (bs : List Byte) :
    (fn = none ∧ frameBytes fn h bs = .ok bs) ∨
    (∃ crc, fn = some crc ∧ (bs.length < h ∨ (bs.length - h) % 2 = 1) ∧
      frameBytes fn h bs = .error (.frameLen bs.length h)) ∨
    (∃ crc, fn = some crc ∧ h ≤ bs.length ∧ (bs.length - h) % 2 = 0 ∧
      frameBytes fn h bs = .ok (bs.take h ++ frameGroups crc (bs.drop h))) := by
  unfold frameBytes
  cases fn with
  | none => exact .inl ⟨rfl, rfl⟩
  | some crc =>
    by_cases h1 : h > bs.length
    · exact .inr (.inl ⟨crc, rfl, .inl h1, by simp [h1]⟩)
    · by_cases h2 : (bs.length - h) % 2 ≠ 0
      · exact .inr (.inl ⟨crc, rfl, .inr (by omega), by simp [h1, h2]⟩)
      · exact .inr (.inr ⟨crc, rfl, by omega, by omega, by simp [h1, h2]⟩)

/-- Deframing passes the bytes through without a checksum function, and otherwise refuses a length that is no multiple of 3,
fails at a bad group, or strips the checksums (R155). -/
theorem deframeBytes_cases (fn : Option (Byte → Byte → Byte)) (bs : List Byte) :
    (fn = none ∧ deframeBytes fn bs = .ok (bs, false)) ∨
    (∃ crc, fn = some crc ∧ bs.length % 3 ≠ 0 ∧ deframeBytes fn bs = .error (.deframeLen bs.length)) ∨
    (∃ crc e, fn = some crc ∧ bs.length % 3 = 0 ∧ deframeGroups crc 0 bs = .error e ∧ deframeBytes fn bs = .error e) ∨
    (∃ crc out, fn = some crc ∧ bs.length % 3 = 0 ∧ deframeGroups crc 0 bs = .ok out ∧
      deframeBytes fn bs = .ok (out, out.isEmpty)) := by
  unfold deframeBytes
  cases fn with
  | none => exact .inl ⟨rfl, rfl⟩
  | some crc =>
    by_cases h : bs.length % 3 ≠ 0
    · exact .inr (.inl ⟨crc, rfl, h, by simp [h]⟩)
    · rw [not_not] at h
      cases hd : deframeGroups crc 0 bs with
      | error e => exact .inr (.inr (.inl ⟨crc, e, rfl, h, hd, by simp [h, hd]⟩))
      | ok out => exact .inr (.inr (.inr ⟨crc, out, rfl, h, hd, by simp [h, hd]⟩))

/-- A group is two bytes of payload and one checksum byte (R154). -/
theorem frameGroups_length (crc : Byte → Byte → Byte) (p : List Byte) :
    (frameGroups crc p).length = 3 * (p.length / 2) := by
  induction p using frameGroups.induct with
  | case1 a b rest ih =>
    simp only [frameGroups, List.length_cons, ih]
    omega
  | case2 p h =>
    match p, h with
    | [], _ => rfl
    | [_], _ => simp [frameGroups]
    | a :: b :: rest, h => exact absurd rfl (h a b rest)

/-- The four ways the SHDLC check can end, in the order of R201. -/
theorem shdlcError_cases (p : Ports) :
    (p.ea ≠ p.sa ∧ shdlcError p = some (.mismatchAddr p.ea p.sa)) ∨
    (p.ea = p.sa ∧ p.ec ≠ p.sc ∧ shdlcError p = some (.mismatchCmd p.ec p.sc)) ∨
    (p.ea = p.sa ∧ p.ec = p.sc ∧ p.es.extractLsb' 0 7 ≠ 0 ∧ shdlcError p = some (.device p.es)) ∨
    (p.ea = p.sa ∧ p.ec = p.sc ∧ p.es.extractLsb' 0 7 = 0 ∧ shdlcError p = none) := by
  unfold shdlcError
  by_cases h1 : p.ea = p.sa
  · by_cases h2 : p.ec = p.sc
    · by_cases h3 : p.es.extractLsb' 0 7 = 0
      · exact .inr (.inr (.inr ⟨h1, h2, h3, by simp [h1, h2, h3]⟩))
      · exact .inr (.inr (.inl ⟨h1, h2, h3, by simpa [h1, h2] using h3⟩))
    · exact .inr (.inl ⟨h1, h2, by simp [h1, h2]⟩)
  · exact .inl ⟨h1, by simp [h1]⟩

/-- A response descriptor is absent, malformed or legal (R182, R202). -/
theorem optDescr_cases (desc : List Byte) :
    (desc = [] ∧ optDescr desc = .ok none) ∨
    (desc ≠ [] ∧ ∃ e, validate .rx desc = .error e ∧ optDescr desc = .error e) ∨
    (desc ≠ [] ∧ ∃ d, validate .rx desc = .ok d ∧ optDescr desc = .ok (some d)) := by
  unfold optDescr
  by_cases h : desc = []
  · exact .inl ⟨h, by simp [h]⟩
  · have hl : desc.length ≠ 0 := by simpa using h
    cases hv : validate .rx desc with
    | error e => exact .inr (.inl ⟨h, e, rfl, by simp [h]⟩)
    | ok d => exact .inr (.inr ⟨h, d, rfl, by simp [h]⟩)

end Sys2Proof.Machine
end

