-- ==== Sys2Proof/Laws/PerInstr.lean ====
section
/-! SUPPORT. Statements about every command as syntax, one lemma per constructor of Instr. -/

namespace Sys2Proof.Laws

/-- 30_encoding.md rules R71, R73: the word of the command is a legal command word. -/
def EncodeLegal.Statement (i : Instr) : Prop := legalCmd (encode i) = true

theorem EncodeLegal.crccalc : EncodeLegal.Statement .crccalc := by
  unfold EncodeLegal.Statement
  decide

theorem EncodeLegal.frame : ∀ b, EncodeLegal.Statement (.frame b) := by
  unfold EncodeLegal.Statement
  decide

theorem EncodeLegal.deframe : EncodeLegal.Statement .deframe := by
  unfold EncodeLegal.Statement
  decide

theorem EncodeLegal.rxlen : EncodeLegal.Statement .rxlen := by
  unfold EncodeLegal.Statement
  decide

theorem EncodeLegal.pack : EncodeLegal.Statement .pack := by
  unfold EncodeLegal.Statement
  decide

theorem EncodeLegal.unpack : EncodeLegal.Statement .unpack := by
  unfold EncodeLegal.Statement
  decide

theorem EncodeLegal.unpackDyn : EncodeLegal.Statement .unpackDyn := by
  unfold EncodeLegal.Statement
  decide

theorem EncodeLegal.shdlcCheck : EncodeLegal.Statement .shdlcCheck := by
  unfold EncodeLegal.Statement
  decide

theorem EncodeLegal.shdlcRx : EncodeLegal.Statement .shdlcRx := by
  unfold EncodeLegal.Statement
  decide

theorem EncodeLegal.i2cTx : EncodeLegal.Statement .i2cTx := by
  unfold EncodeLegal.Statement
  decide

theorem EncodeLegal.i2cRx : EncodeLegal.Statement .i2cRx := by
  unfold EncodeLegal.Statement
  decide

theorem EncodeLegal.rdreg : ∀ b, EncodeLegal.Statement (.rdreg b) := by
  unfold EncodeLegal.Statement
  decide

theorem EncodeLegal.wrreg : ∀ b, EncodeLegal.Statement (.wrreg b) := by
  unfold EncodeLegal.Statement
  decide

end Sys2Proof.Laws
end

