-- ==== Sys2Proof/Tests/Slice0.lean ====
section
/-! SUPPORT. Tests. The expected words are written out from 30_encoding.md rule R71, the expected results are those of
spec/95_test_vectors.md (the vector's name is in the comment). The witnesses of the statements are in Tests/Witnesses.lean. -/

namespace Sys2Proof.Tests

open Sys2Proof.Machine

/-! ## Helpers -/

/-- A state with CTRL, the reset CRC_CFG and these ports. -/
def start (ctrl : Word) (p : Ports) : State := { State.reset with ctrl := ctrl, ports := p }

/-- A state whose host issues these ports next. -/
def issuing (p : Ports) : State := { State.reset with hostQueue := [.issue p] }

/-- The results of a command: DOUT, VOUT, RDATA, STATUS, ERR_INFO. -/
def results (o : Host.Outcome State Fault Refusal) :
    Option (List Byte × Option (List Value) × Word × Word × Word) :=
  match o with
  | .next t => some (t.dout, t.vout, t.rdata, t.status, t.errInfo)
  | .fault _ => none
  | .refused _ => none

/-- CTRL and CRC_CFG after a command. -/
def parameters (o : Host.Outcome State Fault Refusal) : Option (Word × Word) :=
  match o with
  | .next t => some (t.ctrl, t.crcCfg)
  | .fault _ => none
  | .refused _ => none

/-- The decoder accepts a word as this command. -/
def decodesTo (w : Word) (i : Instr) : Bool := decide ((decodeWord w).toOption = some i)

/-- The USAGE cause and field that validation ends with. -/
def usageOf (use : Use) (bytes : List Byte) : Option (UsageCause × Byte) :=
  match validate use bytes with
  | .error (.usage c f) => some (c, f)
  | _ => none

/-- The descriptor that validation answers. -/
def validOf (use : Use) (bytes : List Byte) : Option Descr := (validate use bytes).toOption

/-! ## Decoding: every row of R71, bit by bit (reserved, IMM8, OP) -/

theorem test_decode_crccalc : decodesTo 0b00000000000000000000000000000001 .crccalc = true := by decide
theorem test_decode_frame : decodesTo 0b00000000000000000000000100000010 (.frame 1) = true := by decide
theorem test_decode_frame_max : decodesTo 0b00000000000000001111111100000010 (.frame 255) = true := by decide
theorem test_decode_deframe : decodesTo 0b00000000000000000000000000000011 .deframe = true := by decide
theorem test_decode_rxlen : decodesTo 0b00000000000000000000000000000100 .rxlen = true := by decide
theorem test_decode_pack : decodesTo 0b00000000000000000000000000010000 .pack = true := by decide
theorem test_decode_unpack : decodesTo 0b00000000000000000000000000010001 .unpack = true := by decide
theorem test_decode_unpackDyn : decodesTo 0b00000000000000000000000000010010 .unpackDyn = true := by decide
theorem test_decode_shdlcCheck : decodesTo 0b00000000000000000000000000100000 .shdlcCheck = true := by decide
theorem test_decode_shdlcRx : decodesTo 0b00000000000000000000000000100001 .shdlcRx = true := by decide
theorem test_decode_i2cTx : decodesTo 0b00000000000000000000000000110000 .i2cTx = true := by decide
theorem test_decode_i2cRx : decodesTo 0b00000000000000000000000000110001 .i2cRx = true := by decide
theorem test_decode_rdreg : decodesTo 0b00000000000000000000000101000000 (.rdreg 1) = true := by decide
theorem test_decode_wrreg : decodesTo 0b00000000000000000000000001000001 (.wrreg 0) = true := by decide

/-- V6.5 to V6.9: words that select no command, and why. -/
theorem test_decode_rejects :
    decodeWord 0x00000000 = .error (.unassignedOp 0x00) ∧ decodeWord 0x00000105 = .error (.unassignedOp 0x05) ∧
      decodeWord 0x00000103 = .error (.unusedImm8 0x03 0x01) ∧ decodeWord 0x00010001 = .error .reservedBits ∧
      decodeWord 0x000000FF = .error (.unassignedOp 0xFF) := ⟨rfl, rfl, rfl, rfl, rfl⟩

theorem test_decodeTableWord : decodeTableWord 32 0x00001041 = some (.wrreg 0x10) ∧ decodeTableWord 32 0x00010001 = none := by
  decide

/-! ## WellFormed: an ill-formed term for each check -/

theorem test_wf_reserved : legalCmd 0x00010001 = false := by decide
theorem test_wf_unassigned : legalCmd 0x00000005 = false := by decide
theorem test_wf_unused_imm : legalCmd 0x00000103 = false := by decide
theorem test_wf_legal : legalCmd 0x00000102 = true := by decide
theorem test_wf_count : Field.countOk ⟨.u8, .scalar, false, 1⟩ = false ∧ Field.countOk ⟨.u8, .array, false, 0⟩ = false := by
  decide
theorem test_wf_string : Field.stringOk ⟨.u16, .string, false, 4⟩ = false := by decide
theorem test_wf_fold : Field.foldOk .rx ⟨.bool, .array, true, 2⟩ = false ∧ Field.foldOk .tx ⟨.u8, .array, true, 2⟩ = false ∧
    Field.foldOk .rx ⟨.u8, .scalar, true, 0⟩ = false := by decide
theorem test_wf_command : Field.commandOk ⟨.u32, .scalar, false, 0⟩ = false ∧ Field.commandOk ⟨.u8, .array, false, 1⟩ = false ∧
    Descr.commandOk .tx ⟨.be, []⟩ = false := by decide
theorem test_wf_strings :
    Descr.wellFormed .rx ⟨.be, [⟨.u8, .string, false, 4⟩, ⟨.u8, .string, false, 4⟩]⟩ = false := by decide
theorem test_wf_length : Descr.lengthOk ⟨.be, List.replicate 256 ⟨.u8, .scalar, false, 0⟩⟩ = false := by
  decide +kernel
theorem test_wf_descr : Descr.wellFormed .tx ⟨.be, [⟨.u8, .scalar, false, 0⟩, ⟨.u16, .scalar, false, 0⟩]⟩ = true := by decide
theorem test_wf_cmdid : Ports.inDomain { cmdid := 65536 } = false := by decide

/-! ## Descriptor validation: V3.1, V3.3, V3.5 to V3.7, V3.9, V3.10, V3.13, V3.16 -/

theorem test_usage_length : usageOf .rx [0x00, 0x01, 0x00] = some (.length, 0xFF) := by decide
theorem test_usage_header : usageOf .rx [0x02, 0x01, 0x00, 0x00] = some (.reservedBit, 0xFF) := by decide
theorem test_usage_etype : usageOf .rx [0x00, 0x02, 0x00, 0x00, 0x0B, 0x00] = some (.reservedCode, 1) := by decide
theorem test_usage_shape : usageOf .rx [0x00, 0x01, 0x30, 0x01] = some (.reservedCode, 0) := by decide
theorem test_usage_count : usageOf .rx [0x00, 0x01, 0x00, 0x01] = some (.badCount, 0) := by decide
theorem test_usage_string : usageOf .rx [0x00, 0x01, 0x22, 0x04] = some (.stringElement, 0) := by decide
theorem test_usage_fold : usageOf .rx [0x00, 0x01, 0x58, 0x02] = some (.illegalFold, 0) := by decide
theorem test_usage_command : usageOf .tx [0x00, 0x01, 0x04, 0x00] = some (.commandField, 0) := by decide
theorem test_usage_strings : usageOf .rx [0x00, 0x02, 0x20, 0x04, 0x20, 0x04] = some (.manyStrings, 1) := by decide

/-! ## One or two steps per command -/

/-- R151's check value. -/
theorem test_crc8_check_value : crc8 0x31 0xFF 0x00 0xBE 0xEF = 0x92 := by decide +kernel

/-- V1.2. -/
theorem test_crccalc : results (exec .crccalc (start 0 { din := [0x03, 0xE8] })) = some ([], none, 0xD4, 0, 0) := by decide +kernel

/-- V1.12. -/
theorem test_crccalc_short : results (exec .crccalc (start 0 { din := [0x03] })) = some ([], none, 0, 0x12, 1) := by decide

/-- V1.15. -/
theorem test_frame : results (exec (.frame 2) (start 1 { din := [0x36, 0x46, 0x12, 0x34, 0x00, 0x00] })) =
    some ([0x36, 0x46, 0x12, 0x34, 0x37, 0x00, 0x00, 0x81], none, 0, 0, 0) := by decide +kernel

/-- V1.20. -/
theorem test_frame_long_header : results (exec (.frame 4) (start 1 { din := [0x89, 0x03, 0xE8] })) =
    some ([], none, 0, 0x12, 0x00040003) := by decide

/-- V1.22. -/
theorem test_deframe : results (exec .deframe (start 1 { din := [0x03, 0xE8, 0xD4] })) =
    some ([0x03, 0xE8], none, 0, 0, 0) := by decide +kernel

/-- V1.24. -/
theorem test_deframe_checksum : results (exec .deframe (start 1 { din := [0x12, 0x34, 0x37, 0xBE, 0xEF, 0x00] })) =
    some ([0x12, 0x34, 0x37, 0xBE, 0xEF, 0x00], none, 0, 0x01, 0x00059200) := by decide +kernel

/-- V4.6. -/
theorem test_rxlen : results (exec .rxlen (start 1 { desc := [0x00, 0x02, 0x02, 0x00, 0x20, 0x20] })) =
    some ([], none, 0x33, 0, 0) := by decide

/-- V4.4. -/
theorem test_rxlen_odd : results (exec .rxlen (start 1 { desc := [0x00, 0x01, 0x00, 0x00] })) =
    some ([], none, 0, 0x17, 1) := by decide

/-- V2.3. -/
theorem test_pack : results (exec .pack (start 0
    { desc := [0x00, 0x04, 0x02, 0x00, 0x01, 0x00, 0x03, 0x00, 0x04, 0x00], cmdid := 0x3646,
      vin := [.int (-1), .int (-2), .int 0x01020304] })) =
    some ([0x36, 0x46, 0xFF, 0xFF, 0xFE, 0x01, 0x02, 0x03, 0x04], none, 2, 0, 0) := by decide

/-- V2.8. -/
theorem test_pack_truncates : results (exec .pack (start 0
    { desc := [0x00, 0x02, 0x00, 0x00, 0x20, 0x04], cmdid := 0x20,
      vin := [.bytes [0x61, 0x62, 0x63, 0x64, 0x65, 0x66]] })) =
    some ([0x20, 0x61, 0x62, 0x63, 0x64], none, 1, 0x100, 0) := by decide

/-- V2.20. -/
theorem test_unpack : results (exec .unpack (start 0
    { desc := [0x01, 0x03, 0x03, 0x00, 0x08, 0x00, 0x00, 0x00], din := [0xFE, 0xFF, 0x02, 0x07] })) =
    some ([], some [.int (-2), .bool true, .int 7], 0, 0, 0) := by decide

/-- V2.25, the source's string example. -/
theorem test_unpack_string : results (exec .unpack (start 0
    { desc := [0x00, 0x02, 0x02, 0x00, 0x20, 0x08], din := [0x12, 0x34, 0x61, 0x62, 0x63, 0, 0, 0, 0, 0] })) =
    some ([], some [.int 4660, .str [0x61, 0x62, 0x63]], 0, 0x800, 0) := by decide

/-- V2.37. -/
theorem test_unpackDyn_short : results (exec .unpackDyn (start 0
    { desc := [0x00, 0x02, 0x02, 0x00, 0x04, 0x00], din := [0x03, 0xE8, 0x00] })) =
    some ([], none, 0, 0x14, 0x00010002) := by decide

/-- V2.32 through UNPACK_DYN: a fold of little-endian elements. -/
theorem test_unpackDyn_fold : results (exec .unpackDyn (start 0
    { desc := [0x01, 0x01, 0x52, 0x03], din := [0x01, 0x00, 0x02, 0x00, 0x03, 0x00] })) =
    some ([], some [.arr (.cons (.int 4295098371) .nil)], 0, 0x800, 0) := by decide

/-- V5.5. -/
theorem test_shdlcCheck : results (exec .shdlcCheck (start 0 { sc := 0xD0, ec := 0xD0, es := 0x80, din := [0x01] })) =
    some ([0x01], none, 0, 0x400, 0) := by decide

/-- V5.6. -/
theorem test_shdlcCheck_device : results (exec .shdlcCheck (start 0 { sc := 0xD0, ec := 0xD0, es := 0x81 })) =
    some ([], none, 0, 0x404, 0x81) := by decide

/-- V5.8. -/
theorem test_shdlcRx : results (exec .shdlcRx (start 1
    { sc := 0xD0, ec := 0xD0, din := [0x53, 0x45, 0x4E, 0x35, 0x35, 0x00], desc := [0x00, 0x01, 0x20, 0x20] })) =
    some ([0x53, 0x45, 0x4E, 0x35, 0x35, 0x00], some [.str [0x53, 0x45, 0x4E, 0x35, 0x35]], 0, 0x800, 0) := by decide

/-- V5.13: USAGE before MISMATCH_ADDR. -/
theorem test_shdlcRx_usage : results (exec .shdlcRx (start 0
    { sc := 0x03, ea := 0x01, ec := 0x03, desc := [0x00, 0x01, 0x0C, 0x00] })) =
    some ([], none, 0, 0x05, 0x04) := by decide

/-- V4.14. -/
theorem test_i2cTx : results (exec .i2cTx (start 1
    { desc := [0x00, 0x02, 0x00, 0x00, 0x20, 0x04], cmdid := 0x20, vin := [.bytes [0x61, 0x62, 0x63, 0x64, 0x65]] })) =
    some ([0x20, 0x61, 0x62, 0xF9, 0x63, 0x64, 0x86], none, 1, 0x100, 0) := by decide +kernel

/-- V4.12. -/
theorem test_i2cTx_odd : results (exec .i2cTx (start 1
    { desc := [0x00, 0x02, 0x02, 0x00, 0x00, 0x00], cmdid := 0x3646, vin := [.int 1] })) =
    some ([], none, 0, 0x12, 0x00020003) := by decide

/-- V4.15. -/
theorem test_i2cRx : results (exec .i2cRx (start 1
    { desc := [0x00, 0x02, 0x02, 0x00, 0x02, 0x00], din := [0x64, 0x8B, 0xC7, 0x0B, 0xB8, 0x9D] })) =
    some ([0x64, 0x8B, 0x0B, 0xB8], some [.int 25739, .int 3000], 0, 0, 0) := by decide +kernel

/-- V4.17. -/
theorem test_i2cRx_nodata : results (exec .i2cRx (start 1 { desc := [0x00, 0x02, 0x02, 0x00, 0x02, 0x00] })) =
    some ([], none, 0, 0x200, 0) := by decide

/-- V6.1. -/
theorem test_rdreg : results (exec (.rdreg 1) (start 0 {})) = some ([], none, 0x0800FF31, 0, 0) := by decide

/-- V6.3. -/
theorem test_rdreg_unmapped : results (exec (.rdreg 4) (start 0 {})) = some ([], none, 0, 0x11, 4) := by decide

/-- R221's example: CRC_CFG = 0x08550007. -/
theorem test_wrreg : parameters (exec (.wrreg 1) (start 0 { wdata := 0x00550007 })) = some (0, 0x08550007) := by decide

/-- V6.4. -/
theorem test_wrreg_unmapped : results (exec (.wrreg 0x10) (start 0 { wdata := 1 })) = some ([], none, 0, 0x11, 0x110) := by
  decide

/-! ## The step -/

/-- V6.7. -/
theorem test_step_illegal : results (step (issuing { cmd := 0x00000103 })) = some ([], none, 0, 0x10, 0x103) := by decide

theorem test_step_reset : parameters (step { start 1 {} with crcCfg := 0x08000007, hostQueue := [.reset] }) =
    some (0, 0x0800FF31) := by decide

theorem test_withFetchWord : results (step (State.reset.withFetchWord 32 0x00000140)) =
    some ([], none, 0x0800FF31, 0, 0) := by decide

/-! ## Notation: the examples of R92, R93 and V2.6 -/

theorem test_text_frame : commandText (.frame 1) { din := [0x89, 0x03, 0xE8] } = "FRAME 1 ; din=<89 03 E8>" := by decide

theorem test_text_rdreg : commandText (.rdreg 1) {} = "RDREG CRC_CFG" := by decide

theorem test_text_values : valueListText [.list (.cons (.int 1) (.cons (.int (-2)) .nil)), .absent] =
    "(LIST(INT 1, INT -2), ABSENT)" := by decide

theorem test_assemble : assemble ⟨.le, [⟨.u16, .array, true, 3⟩]⟩ = [0x01, 0x01, 0x52, 0x03] := by decide

theorem test_pseudo_crcset : expandPseudo (.crcSet 0x07 0x00 0x55) = { cmd := 0x00000141, wdata := 0x00550007 } := by decide

end Sys2Proof.Tests
end

