-- ==== Sys2Proof/Tests/Witnesses.lean ====
section
/-! SUPPORT. Witnesses: for each statement of Certificates/Slice0/Obligations.lean that has hypotheses, a concrete state and
operands that meet all of them together, for each of its clauses, at the boundary of the clause's range. -/

namespace Sys2Proof.Tests

open Sys2Proof.Machine

/-! ## Helpers -/

/-- The request descriptor `U8, U16`, most significant byte first. -/
def txDesc : List Byte := [0x00, 0x02, 0x00, 0x00, 0x02, 0x00]

/-- The same descriptor as data. -/
def txDescr : Descr := ⟨.be, [⟨.u8, .scalar, false, 0⟩, ⟨.u16, .scalar, false, 0⟩]⟩

/-- The response descriptor `U16, U16`. -/
def rxDesc : List Byte := [0x00, 0x02, 0x02, 0x00, 0x02, 0x00]

/-- The same descriptor as data. -/
def rxDescr : Descr := ⟨.be, [⟨.u16, .scalar, false, 0⟩, ⟨.u16, .scalar, false, 0⟩]⟩

/-- The request descriptor `U8, STR(4)`, with a string. -/
def strDesc : List Byte := [0x00, 0x02, 0x00, 0x00, 0x20, 0x04]

/-- The same descriptor as data. -/
def strDescr : Descr := ⟨.be, [⟨.u8, .scalar, false, 0⟩, ⟨.u8, .string, false, 4⟩]⟩

/-- A state with the request `0x89, INT 1000` on its ports. -/
def txState (ctrl : Word) : State := start ctrl { desc := txDesc, cmdid := 0x89, vin := [.int 1000] }

/-- A state that issues the request with the longest ports a MAX_LEN of `n` admits, or longer. -/
def longState (n : BitVec 16) (p : Ports) : State := { issuing p with config := ⟨n⟩ }

/-! ## Command words and the step -/

/-- IllegalWordRaisesIllegalCmd: an illegal word, DIN exactly MAX_LEN bytes long. -/
theorem wit_IllegalWordRaisesIllegalCmd :
    (longState 3 { cmd := 0x00010001, din := [1, 2, 3] }).hostQueue = [.issue { cmd := 0x00010001, din := [1, 2, 3] }] ∧
      [1, 2, 3].length ≤ (longState 3 {}).config.maxLen.toNat ∧ legalCmd 0x00010001 = false := by decide

/-- StepRunsDecodedCommand, at DIN exactly MAX_LEN bytes long. -/
theorem wit_StepRunsDecodedCommand :
    (longState 3 { cmd := 0x00000003, din := [1, 2, 3] }).hostQueue = [.issue { cmd := 0x00000003, din := [1, 2, 3] }] ∧
      [1, 2, 3].length ≤ (longState 3 {}).config.maxLen.toNat ∧ decodesTo 0x00000003 .deframe = true := by decide

/-- StepRefusesExactlyLongPorts: one byte too long is refused, and exactly MAX_LEN bytes are not. -/
theorem wit_StepRefusesExactlyLongPorts :
    step (longState 3 { cmd := 3, din := [1, 2, 3, 4] }) = .refused .portTooLong ∧
      step (longState 3 { cmd := 3, desc := [1, 2, 3, 4] }) = .refused .portTooLong ∧
      ∃ t, step (longState 3 { cmd := 3, din := [1, 2, 3] }) = .next t := ⟨rfl, rfl, _, rfl⟩

/-- ResetSetsEveryRegister: a reset is asserted on a state that differs from the reset state. -/
theorem wit_ResetSetsEveryRegister :
    ({ start 1 {} with status := 5, hostQueue := [.reset] } : State).hostQueue = .reset :: [] := by decide

/-- StepTakesOneHostEvent: a step answers a next state when the host issues, resets and does nothing. -/
theorem wit_StepTakesOneHostEvent :
    (∃ t, step (issuing { cmd := 0x40 }) = .next t) ∧ (∃ t, step { start 1 {} with hostQueue := [.reset] } = .next t) ∧
      ∃ t, step State.reset = .next t := ⟨⟨_, rfl⟩, ⟨_, rfl⟩, _, rfl⟩

/-- StepKeepsRegisterInvariant: the invariant holds after an error that its log shows, and the next step answers. -/
theorem wit_StepKeepsRegisterInvariant :
    ((issuing { cmd := 0x00000003 }).raise (.device 0x81)).Inv ∧
      ∃ t, step ((issuing { cmd := 0x00000003 }).raise (.device 0x81)) = .next t := ⟨by decide, _, rfl⟩

/-! ## Layouts and byte order -/

/-- ErrInfoLayout: the largest header length. -/
theorem wit_ErrInfoLayout : 255 < 256 ∧ (BlockError.frameLen 65535 255).info = 0x00FFFFFF := by decide

/-- ByteOrderFormulas: the first and last byte of 8, and a descriptor in each byte order. -/
theorem wit_ByteOrderFormulas :
    0 < 8 ∧ 7 < 8 ∧ enc .be 2 1000 = [0x03, 0xE8] ∧ enc .le 2 1000 = [0xE8, 0x03] ∧
      validOf .tx txDesc = some txDescr ∧ validOf .rx (0x01 :: [0x00]) = some ⟨.le, []⟩ := by decide

/-- DecodeInvertsEncodeBytes: the two ends of the signed range of one byte. -/
theorem wit_DecodeInvertsEncodeBytes :
    0 < 1 ∧ -(2 : Int) ^ (8 * 1 - 1) ≤ -128 ∧ (127 : Int) < 2 ^ (8 * 1 - 1) ∧ decS .be (enc .be 1 (-128)) = -128 := by decide

/-! ## Descriptors -/

/-- ValidateIffAssembledLegalDescriptor: a legal descriptor for each use, and the empty one. -/
theorem wit_ValidateIffAssembledLegalDescriptor :
    txDescr.wellFormed .tx = true ∧ validOf .tx (assemble txDescr) = some txDescr ∧
      Descr.wellFormed .rx ⟨.le, []⟩ = true ∧ validOf .rx [0x01, 0x00] = some ⟨.le, []⟩ := by decide

/-- SecondStringFieldRejected: two strings, in a request and in a response descriptor. -/
theorem wit_SecondStringFieldRejected :
    Descr.commandOk .tx ⟨.be, [⟨.u8, .scalar, false, 0⟩, ⟨.u8, .string, false, 2⟩, ⟨.u8, .string, false, 2⟩]⟩ = true ∧
      Descr.lengthOk ⟨.be, [⟨.u8, .string, false, 2⟩, ⟨.u8, .string, false, 2⟩]⟩ = true ∧
      (∀ f ∈ [(⟨.u8, .scalar, false, 0⟩ : Field), ⟨.u8, .string, false, 2⟩, ⟨.u8, .string, false, 2⟩],
        f.countOk = true ∧ f.stringOk = true ∧ f.foldOk .tx = true ∧ f.foldOk .rx = true) ∧
      2 ≤ stringCount [⟨.u8, .string, false, 2⟩, ⟨.u8, .string, false, 2⟩] := by decide

/-- MalformedDescriptorRaisesUsage: a present malformed descriptor for each use. -/
theorem wit_MalformedDescriptorRaisesUsage :
    ([0x00] : List Byte) ≠ [] ∧ usageOf .rx [0x00] = some (.length, 0xFF) ∧ usageOf .tx [] = some (.length, 0xFF) ∧
      usageOf .tx [0x00, 0x00] = some (.commandField, 0xFF) := by decide

/-! ## Packing -/

/-- FlattenSplicesLists: a list to splice, an empty list, and a nested list after a good element. -/
theorem wit_FlattenSplicesLists :
    noNestedList (.list (.cons (.int 1) (.cons (.int 2) .nil))) = true ∧ noNestedList (.list .nil) = true ∧
      noNestedList (.int 3) = true ∧
      Values.toList (.cons (.int 1) (.cons (.list .nil) .nil)) = [.int 1] ++ Value.list .nil :: [] ∧
      isListValue (.int 1) = false := by decide

/-- PackEncodesRequest: the largest command id of one byte, and a string longer than its field. -/
theorem wit_PackEncodesRequest :
    validOf .tx strDesc = some strDescr ∧ 0xFF < 2 ^ (8 * cmdWidth strDescr) ∧
      (flatten [.bytes [1, 2, 3, 4, 5]]).toOption = some [.bytes [1, 2, 3, 4, 5]] ∧
      List.Forall₂ slotAccepts (slots strDescr) [.bytes [1, 2, 3, 4, 5]] :=
  ⟨by decide, by decide, by decide, .cons (by decide) .nil⟩

/-- PackedRequestLength: a request that PACK packs. -/
theorem wit_PackedRequestLength :
    validOf .tx (txState 0).ports.desc = some txDescr ∧ ∃ t, exec .pack (txState 0) = .next t ∧ statusErr t.status = 0 :=
  ⟨by decide, _, rfl, by decide⟩

/-- PackRejectsCommandIdThenCount: the smallest command id that does not fit, and the largest that does, with no argument and
with a nested LIST after one argument. -/
theorem wit_PackRejectsCommandIdThenCount :
    validOf .tx txDesc = some txDescr ∧ 2 ^ (8 * cmdWidth txDescr) ≤ 0x100 ∧ 0xFF < 2 ^ (8 * cmdWidth txDescr) ∧
      (flatten []).toOption = some [] ∧ ([] : List Value).length ≠ (slots txDescr).length ∧
      noNestedList (.list .nil) = true ∧ isListValue (.int 1) = false ∧
      Values.toList (.cons (.int 1) (.cons (.list .nil) .nil)) = [.int 1] ++ Value.list .nil :: [] := by decide

/-- PackRejectsFirstBadArgument: slot 0 with a value of the wrong kind, and with an integer just out of range. -/
theorem wit_PackRejectsFirstBadArgument :
    validOf .tx txDesc = some txDescr ∧ 0x89 < 2 ^ (8 * cmdWidth txDescr) ∧
      (flatten [.bool true]).toOption = some [.bool true] ∧ [Value.bool true].length = (slots txDescr).length ∧
      (slots txDescr)[0]? = some (.elem .u16) ∧ kindOk (.elem .u16) (.bool true) = false ∧
      kindOk (.elem .u16) (.int 65536) = true ∧ rangeOk (.elem .u16) (.int 65536) = false ∧
      rangeOk (.elem .u16) (.int 65535) = true ∧ rangeOk (.elem .i8) (.int (-128)) = true ∧
      rangeOk (.elem .i8) (.int (-129)) = false := by decide

/-- UnpackInvertsPack: a request of SCALAR fields that PACK packs. -/
theorem wit_UnpackInvertsPack :
    validOf .tx (txState 0).ports.desc = some txDescr ∧ (∀ f ∈ txDescr.fields, f.shape = .scalar) ∧
      (flatten (txState 0).ports.vin).toOption = some [.int 1000] ∧
      (∃ t, exec .pack (txState 0) = .next t ∧ statusErr t.status = 0 ∧ t.dout.drop (cmdWidth txDescr) = [0x03, 0xE8]) ∧
      (start 0 { desc := assemble ⟨.be, txDescr.fields.tail⟩, din := [0x03, 0xE8] }).ports.desc = [0x00, 0x01, 0x02, 0x00] :=
  ⟨by decide, by decide, by decide, ⟨_, rfl, by decide, by decide⟩, by decide⟩

/-! ## Decoding -/

/-- UnpackFixedFields: exactly `rx_length` bytes, one fewer and one more. -/
theorem wit_UnpackFixedFields :
    rxDesc ≠ [] ∧ validOf .rx rxDesc = some rxDescr ∧ isVar rxDescr = false ∧ [1, 2, 3, 4].length = rxLength rxDescr ∧
      [1, 2, 3].length ≠ rxLength rxDescr ∧ [1, 2, 3, 4, 5].length ≠ rxLength rxDescr := by decide

/-- ScalarDecodeByType: bytes of the size of a type of each clause. -/
theorem wit_ScalarDecodeByType :
    ([0xFF] : List Byte).length = etypeSize .u8 ∧ ([0x80] : List Byte).length = etypeSize .i8 ∧
      ([0x02] : List Byte).length = etypeSize .bool ∧ ([0, 0, 0x80, 0x3F] : List Byte).length = etypeSize .f32 ∧
      ([0, 0, 0, 0, 0, 0, 0xF0, 0x3F] : List Byte).length = etypeSize .f64 := by decide

/-- DynamicDecodeWalksCursor: a descriptor with a field of each shape, decoded; and one that runs short at its second
field. -/
theorem wit_DynamicDecodeWalksCursor :
    (dynDecode ⟨.be, [⟨.u8, .scalar, false, 0⟩, ⟨.u8, .array, false, 2⟩, ⟨.u8, .string, false, 4⟩]⟩
      [0x07, 0x01, 0x00, 0x41, 0x00, 0x99]).toOption =
      some [.int 7, .arr (.cons (.int 1) (.cons (.int 0) .nil)), .str [0x41]] ∧
    dynDecode ⟨.be, [⟨.u8, .array, false, 2⟩, ⟨.u8, .scalar, false, 0⟩]⟩ [0x01, 0x02] = .error (.decodeLen 2 1) :=
  ⟨by decide, rfl⟩

/-- ArrayScanTakesWholeElements: a list of elements that is not empty. -/
theorem wit_ArrayScanTakesWholeElements : [Value.int 0] ≠ [] ∧ ([-1, 2] : List Int) ≠ [] := by decide

/-- The descriptor `STR(4), U8` of V2.27, as data. -/
def fieldAfterString : Descr := ⟨.be, [⟨.u8, .string, false, 4⟩, ⟨.u8, .scalar, false, 0⟩]⟩

/-- UnpackDynCompletes: exactly `rx_length` bytes and more, of a fixed and of a variable descriptor; fewer bytes that a
variable descriptor decodes (V2.27); and too few (V2.37). -/
theorem wit_UnpackDynCompletes :
    rxDesc ≠ [] ∧ validOf .rx rxDesc = some rxDescr ∧ isVar rxDescr = false ∧ rxLength rxDescr ≤ [1, 2, 3, 4].length ∧
      rxLength rxDescr ≤ [1, 2, 3, 4, 5].length ∧
      validOf .rx [0x00, 0x01, 0x20, 0x02] = some ⟨.be, [⟨.u8, .string, false, 2⟩]⟩ ∧
      rxLength ⟨.be, [⟨.u8, .string, false, 2⟩]⟩ ≤ [1, 2].length ∧
      validOf .rx (assemble fieldAfterString) = some fieldAfterString ∧ [0x41, 0x00, 0x07].length < rxLength fieldAfterString ∧
      (dynDecode fieldAfterString [0x41, 0x00, 0x07]).toOption = some [.str [0x41], .int 7] ∧
      validOf .rx [0x00, 0x02, 0x02, 0x00, 0x04, 0x00] =
        some ⟨.be, [⟨.u16, .scalar, false, 0⟩, ⟨.u32, .scalar, false, 0⟩]⟩ ∧
      (∃ c f, dynDecode ⟨.be, [⟨.u16, .scalar, false, 0⟩, ⟨.u32, .scalar, false, 0⟩]⟩ [0x03, 0xE8, 0x00] =
        .error (.decodeLen c f) ∧ c = 2 ∧ f = 1) :=
  ⟨by decide, by decide, by decide, by decide, by decide, by decide, by decide, by decide, by decide, by decide, by decide,
    _, _, rfl, rfl, rfl⟩

/-- UnpackChoosesDecoder: an absent descriptor, and a variable one. -/
theorem wit_UnpackChoosesDecoder :
    (start 0 {}).ports.desc = [] ∧ validOf .rx [0x00, 0x01, 0x20, 0x02] = some ⟨.be, [⟨.u8, .string, false, 2⟩]⟩ ∧
      isVar ⟨.be, [⟨.u8, .string, false, 2⟩]⟩ = true := by decide

/-- DynamicDecodeFailsOnlyOnShortScalar: a SCALAR one byte short. -/
theorem wit_DynamicDecodeFailsOnlyOnShortScalar : dynDecode rxDescr [1, 2, 3] = .error (.decodeLen 2 1) := rfl

/-! ## The framer -/

/-- CrccalcGivesChecksum: two bytes, one and three. -/
theorem wit_CrccalcGivesChecksum :
    (start 0 { din := [0xBE, 0xEF] }).ports.din = [0xBE, 0xEF] ∧ ([1] : List Byte).length ≠ 2 ∧
      ([1, 2, 3] : List Byte).length ≠ 2 := by decide

/-- FrameInsertsChecksums: CRC off; a header one longer than DIN, and an odd payload; a header of all of DIN, and a pair. -/
theorem wit_FrameInsertsChecksums :
    (start 0 {}).ctrl.getLsbD 0 = false ∧ (start 1 {}).ctrl.getLsbD 0 = true ∧
      ([1, 2, 3] : List Byte).length < (4 : Byte).toNat ∧ (([1, 2, 3] : List Byte).length - (2 : Byte).toNat) % 2 = 1 ∧
      (3 : Byte).toNat ≤ ([1, 2, 3] : List Byte).length ∧ (([1, 2, 3] : List Byte).length - (3 : Byte).toNat) % 2 = 0 ∧
      (([1, 2, 3] : List Byte).length - (1 : Byte).toNat) % 2 = 0 := by decide

/-- DeframeStripsChecksums: CRC off; two lengths that are no multiple of 3; a bad second group after a good first; good
groups, and no group. -/
theorem wit_DeframeStripsChecksums :
    (start 0 {}).ctrl.getLsbD 0 = false ∧ (start 1 {}).ctrl.getLsbD 0 = true ∧
      ([1, 2, 3, 4] : List Byte).length % 3 ≠ 0 ∧ ([1, 2, 3, 4, 5] : List Byte).length % 3 ≠ 0 ∧
      (∀ j, j < 1 → groupGood (start 1 {}).crcFn [0x12, 0x34, 0x37, 0xBE, 0xEF, 0x00] j) ∧
      (0x00 : Byte) ≠ (start 1 {}).crcFn 0xBE 0xEF ∧
      (∀ k, k < 2 → groupGood (start 1 {}).crcFn [0x12, 0x34, 0x37, 0xBE, 0xEF, 0x92] k) ∧
      ∀ k, k < ([] : List Byte).length / 3 → groupGood (start 1 {}).crcFn [] k := by decide +kernel

/-- DeframeInvertsFrame: a header of one byte with a pair, and no header with no payload. -/
theorem wit_DeframeInvertsFrame :
    (start 1 { din := [0x89, 0x03, 0xE8] }).ports.din = [0x89] ++ [0x03, 0xE8] ∧ ([0x89] : List Byte).length = (1 : Byte).toNat ∧
      ([0x03, 0xE8] : List Byte).length % 2 = 0 ∧ (∃ t, exec (.frame 1) (start 1 { din := [0x89, 0x03, 0xE8] }) = .next t) ∧
      ∃ t, exec (.frame 0) (start 1 {}) = .next t := ⟨rfl, rfl, rfl, ⟨_, rfl⟩, _, rfl⟩

/-- CorruptedChecksumDetected: the checksum byte of the first pair. -/
theorem wit_CorruptedChecksumDetected :
    (start 1 { din := [0xBE, 0xEF] }).ctrl.getLsbD 0 = true ∧ ([0xBE, 0xEF] : List Byte).length % 2 = 0 ∧
      (∃ t, exec (.frame 0) (start 1 { din := [0xBE, 0xEF] }) = .next t ∧ t.dout[3 * 0 + 2]? = some 0x92) ∧
      (0x93 : Byte) ≠ 0x92 := ⟨by decide, by decide, ⟨_, rfl, by decide +kernel⟩, by decide⟩

/-- FramingRoundTripsForAnyFunction: a pair, and no payload. -/
theorem wit_FramingRoundTripsForAnyFunction :
    ([1, 2] : List Byte).length % 2 = 0 ∧ ([] : List Byte).length % 2 = 0 := by decide

/-! ## Transfer paths and SHDLC -/

/-- RxlenScalesLength: an absent descriptor, an even and an odd length. -/
theorem wit_RxlenScalesLength :
    (start 1 {}).ports.desc = [] ∧ validOf .rx rxDesc = some rxDescr ∧ rxLength rxDescr % 2 = 0 ∧
      validOf .rx [0x00, 0x01, 0x00, 0x00] = some ⟨.be, [⟨.u8, .scalar, false, 0⟩]⟩ ∧
      rxLength ⟨.be, [⟨.u8, .scalar, false, 0⟩]⟩ % 2 = 1 := by decide

/-- I2cTxIsPackThenFrame: PACK refuses; PACK packs and FRAME frames; PACK packs and FRAME refuses. -/
theorem wit_I2cTxIsPackThenFrame :
    (∃ p, exec .pack (start 1 {}) = .next p ∧ statusErr p.status ≠ 0) ∧
      (∃ p f, exec .pack (txState 1) = .next p ∧ statusErr p.status = 0 ∧ (1 : Byte).setWidth 32 = p.rdata ∧
        exec (.frame 1) ((txState 1).withDin p.dout) = .next f ∧ statusErr f.status = 0) ∧
      ∃ p f, exec .pack (start 1 { desc := [0x00, 0x02, 0x02, 0x00, 0x00, 0x00], vin := [.int 1] }) = .next p ∧
        statusErr p.status = 0 ∧ (2 : Byte).setWidth 32 = p.rdata ∧
        exec (.frame 2) ((start 1 { desc := [0x00, 0x02, 0x02, 0x00, 0x00, 0x00], vin := [.int 1] }).withDin p.dout) =
          .next f ∧ statusErr f.status ≠ 0 :=
  ⟨⟨_, rfl, by decide⟩, ⟨_, _, rfl, by decide, by decide, rfl, by decide +kernel⟩, _, _, rfl, by decide, by decide, rfl,
    by decide +kernel⟩

/-- I2cTxCompletes: CRC off, and CRC on with an even number of argument bytes. -/
theorem wit_I2cTxCompletes :
    validOf .tx strDesc = some strDescr ∧ 0x20 < 2 ^ (8 * cmdWidth strDescr) ∧
      (flatten [.bytes []]).toOption = some [.bytes []] ∧ List.Forall₂ slotAccepts (slots strDescr) [.bytes []] ∧
      (start 0 {}).ctrl.getLsbD 0 = false ∧ ((slots strDescr).map slotSize).sum % 2 = 0 :=
  ⟨by decide, by decide, by decide, .cons (by decide) .nil, by decide, by decide⟩

/-- I2cRxIsDeframeThenUnpack: DEFRAME fails, leaves no data, and leaves data; with and without a descriptor. -/
theorem wit_I2cRxIsDeframeThenUnpack :
    (start 1 { din := [1] }).ports.desc = [] ∧ validOf .rx rxDesc = some rxDescr ∧
      (∃ f, exec .deframe (start 1 { din := [1] }) = .next f ∧ statusErr f.status ≠ 0) ∧
      (∃ f, exec .deframe (start 1 { desc := rxDesc }) = .next f ∧ statusNodata f.status = true) ∧
      ∃ f u, exec .deframe (start 0 { desc := rxDesc, din := [1, 2, 3, 4] }) = .next f ∧ statusErr f.status = 0 ∧
        statusNodata f.status = false ∧
        exec .unpack ((start 0 { desc := rxDesc, din := [1, 2, 3, 4] }).withDin f.dout) = .next u :=
  ⟨by decide, by decide, ⟨_, rfl, by decide⟩, ⟨_, rfl, by decide⟩, _, _, rfl, by decide, by decide, rfl⟩

/-- I2cRxDecodesFramedResponse: the response framed, and the response as it is. -/
theorem wit_I2cRxDecodesFramedResponse :
    rxDesc ≠ [] ∧ validOf .rx rxDesc = some rxDescr ∧ isVar rxDescr = false ∧
      ([0x64, 0x8B, 0x0B, 0xB8] : List Byte).length = rxLength rxDescr ∧ ([0x64, 0x8B, 0x0B, 0xB8] : List Byte).length % 2 = 0 ∧
      frameGroups (start 1 {}).crcFn [0x64, 0x8B, 0x0B, 0xB8] = [0x64, 0x8B, 0xC7, 0x0B, 0xB8, 0x9D] := by decide +kernel

/-- ShdlcCheckOrder: each clause, the status byte at 0x00, 0x01, 0x7F, 0x80 and 0x81. -/
theorem wit_ShdlcCheckOrder :
    (1 : Byte) ≠ 0 ∧ (0x00 : Byte).toNat % 128 = 0 ∧ (0x80 : Byte).toNat % 128 = 0 ∧ (0x01 : Byte).toNat % 128 ≠ 0 ∧
      (0x7F : Byte).toNat % 128 ≠ 0 ∧ (0x81 : Byte).toNat % 128 ≠ 0 := by decide

/-- ShdlcRxIsCheckThenUnpackDyn: the check fails; the check passes and the decode fails; both succeed. -/
theorem wit_ShdlcRxIsCheckThenUnpackDyn :
    validOf .rx rxDesc = some rxDescr ∧
      (∃ c u, exec .shdlcCheck (start 0 { desc := rxDesc, ea := 1 }) = .next c ∧
        exec .unpackDyn (start 0 { desc := rxDesc, ea := 1 }) = .next u ∧ statusErr c.status ≠ 0) ∧
      (∃ c u, exec .shdlcCheck (start 0 { desc := rxDesc, es := 0x80 }) = .next c ∧
        exec .unpackDyn (start 0 { desc := rxDesc, es := 0x80 }) = .next u ∧ statusErr c.status = 0 ∧
        statusErr u.status ≠ 0) ∧
      ∃ c u, exec .shdlcCheck (start 0 { desc := rxDesc, din := [1, 2, 3, 4] }) = .next c ∧
        exec .unpackDyn (start 0 { desc := rxDesc, din := [1, 2, 3, 4] }) = .next u ∧ statusErr c.status = 0 ∧
        statusErr u.status = 0 :=
  ⟨by decide, ⟨_, _, rfl, rfl, by decide⟩, ⟨_, _, rfl, rfl, by decide, by decide⟩, _, _, rfl, rfl, by decide, by decide⟩

/-- ShdlcRxCompletes: a matching tuple with only the top bit of the status byte set; exactly `rx_length` bytes, and one
fewer. -/
theorem wit_ShdlcRxCompletes :
    (start 0 { es := 0x80 }).ports.ea = (start 0 { es := 0x80 }).ports.sa ∧ (0x80 : Byte).toNat % 128 = 0 ∧ rxDesc ≠ [] ∧
      validOf .rx rxDesc = some rxDescr ∧ rxLength rxDescr ≤ [1, 2, 3, 4].length ∧
      (dynDecode rxDescr [1, 2, 3, 4]).toOption = some [.int 0x0102, .int 0x0304] ∧
      dynDecode rxDescr [1, 2, 3] = .error (.decodeLen 2 1) :=
  ⟨rfl, by decide, by decide, by decide, by decide, by decide, rfl⟩

/-! ## Registers and the whole machine -/

/-- WrregWritesRegister: a write of CRC_CFG with POLY = 0 answers a next state. -/
theorem wit_WrregWritesRegister :
    ∃ t, exec (.wrreg 1) (start 0 { wdata := 0x00550700 }) = .next t ∧
      (start 0 { wdata := 0x00550700 }).ports.wdata.extractLsb' 0 8 = 0 ∧ t.crcFn 1 2 = 0x55 :=
  ⟨_, rfl, by decide, by decide +kernel⟩

/-- RdregReadsRegister and WrregWritesRegister: the four addresses, and the first and last unmapped one. -/
theorem wit_registerAddresses :
    regAt 0 = some .ctrl ∧ regAt 1 = some .crcCfg ∧ regAt 2 = some .status ∧ regAt 3 = some .errInfo ∧
      ¬ 3 < (3 : Byte).toNat ∧ 3 < (4 : Byte).toNat ∧ 3 < (255 : Byte).toNat := by decide

/-- NextCommandSeesRegisterWrite: CRCSET then CRCCALC, with a MAX_LEN of 2. -/
theorem wit_NextCommandSeesRegisterWrite :
    ∃ t u, step { longState 2 {} with
        hostQueue := [.issue (expandPseudo (.crcSet 0x07 0x00 0x00)), .issue { cmd := encode .crccalc, din := [0x03, 0xE8] }] } =
          .next t ∧ step t = .next u ∧ u.rdata = 0xA9 := ⟨_, _, rfl, rfl, by decide +kernel⟩

/-- PseudoInstructionsTakeEffect: each pseudo-instruction issued. -/
theorem wit_PseudoInstructionsTakeEffect :
    ∀ x ∈ [Pseudo.crcOn, .crcOff, .crcSet 0x07 0x00 0x55, .rdStatus, .rdErr],
      (issuing (expandPseudo x)).hostQueue = .issue (expandPseudo x) :: [] := by decide

/-- OnlyWrregChangesParameters, ErrorWritesOnlyResults, ErrorsRaisedByCommand and RepeatedCommandSameResults: a command that
succeeds and one that ends in an error, each run again. -/
theorem wit_wholeMachine :
    (∃ t u, exec .pack (txState 1) = .next t ∧ exec .pack t = .next u ∧ t.errLog = (txState 1).errLog) ∧
      ∃ t u, exec .pack (start 1 {}) = .next t ∧ exec .pack t = .next u ∧ t.errLog ≠ (start 1 {}).errLog :=
  ⟨⟨_, _, rfl, rfl, rfl⟩, _, _, rfl, rfl, by decide⟩

/-- FlagsSetByCommand: a command sets each flag. -/
theorem wit_FlagsSetByCommand :
    (∃ t, exec .pack (start 0 { desc := strDesc, vin := [.bytes [1, 2, 3, 4, 5]] }) = .next t ∧
      statusTrunc t.status = true) ∧
      (∃ t, exec .deframe (start 1 {}) = .next t ∧ statusNodata t.status = true) ∧
      (∃ t, exec .shdlcCheck (start 0 { es := 0x80 }) = .next t ∧ statusDevstate t.status = true) ∧
      ∃ t, exec .unpackDyn (start 0 { desc := rxDesc, din := [1, 2, 3, 4] }) = .next t ∧ statusDyn t.status = true :=
  ⟨⟨_, rfl, by decide⟩, ⟨_, rfl, by decide⟩, ⟨_, rfl, by decide⟩, _, rfl, by decide⟩

/-- ResultsIgnoreEarlierStatus: two states that differ in STATUS, ERR_INFO, the result ports and the log only. -/
theorem wit_ResultsIgnoreEarlierStatus :
    ((txState 1).raise (.device 0x81)).ctrl = (txState 1).ctrl ∧ ((txState 1).raise (.device 0x81)).crcCfg = (txState 1).crcCfg ∧
      ((txState 1).raise (.device 0x81)).ports = (txState 1).ports ∧ Instr.pack ≠ .rdreg 2 ∧
      ∃ t, exec .pack (txState 1) = .next t := ⟨rfl, rfl, rfl, by decide, _, rfl⟩

end Sys2Proof.Tests
end

section
/-! PROOFS. Byte order (20_memory.md rule R54, 30_encoding.md rule R75): what stands at each place of an encoded byte
sequence, what a byte sequence weighs, and where a descriptor's byte order comes from. -/

namespace Sys2Proof.Machine

/-! ## The bytes of an encoding -/

/-- A byte keeps only the low 8 bits, so R54's mask `& 0xFF` changes nothing. -/
@[simp] theorem ofNat_and_byteMask (u : Nat) : BitVec.ofNat 8 (u &&& 0xFF) = BitVec.ofNat 8 u := by
  apply BitVec.eq_of_toNat_eq
  have mask : u &&& 0xFF = u % 2 ^ 8 := Nat.and_two_pow_sub_one_eq_mod u 8
  simp only [BitVec.toNat_ofNat, mask, Nat.mod_mod]

theorem bytesBE_getElem? (n u k : Nat) (hk : k < n) :
    (bytesBE n u)[k]? = some (BitVec.ofNat 8 (u >>> (8 * (n - 1 - k)))) := by
  induction n generalizing k with
  | zero => omega
  | succ n ih =>
    cases k with
    | zero => simp [bytesBE]
    | succ k =>
      have place : n + 1 - 1 - (k + 1) = n - 1 - k := by omega
      rw [bytesBE, List.getElem?_cons_succ, ih k (by omega), place]

theorem bytesLE_getElem? (n u k : Nat) (hk : k < n) :
    (bytesLE n u)[k]? = some (BitVec.ofNat 8 (u >>> (8 * k))) := by
  induction n generalizing u k with
  | zero => omega
  | succ n ih =>
    cases k with
    | zero => simp [bytesLE]
    | succ k =>
      have place : 8 + 8 * k = 8 * (k + 1) := by omega
      rw [bytesLE, List.getElem?_cons_succ, ih (u >>> 8) k (by omega), ← Nat.shiftRight_add, place]

@[simp] theorem enc_length (o : Order) (n : Nat) (v : Int) : (enc o n v).length = n := by
  cases o with
  | be => exact bytesBE_length n _
  | le => exact bytesLE_length n _

/-! ## The value of a byte sequence -/

theorem natBE_eq_sum (bs : List Byte) :
    natBE bs = ∑ k ∈ Finset.range bs.length, (bs.getD k 0).toNat <<< (8 * (bs.length - 1 - k)) := by
  induction bs with
  | nil => rfl
  | cons b bs ih =>
    have place (k : Nat) : bs.length + 1 - 1 - (k + 1) = bs.length - 1 - k := by omega
    rw [natBE, ih, List.length_cons, Finset.sum_range_succ', Nat.add_comm]
    simp only [place]
    simp

theorem natLE_eq_sum (bs : List Byte) :
    natLE bs = ∑ k ∈ Finset.range bs.length, (bs.getD k 0).toNat <<< (8 * k) := by
  induction bs with
  | nil => rfl
  | cons b bs ih =>
    have shifted : natLE bs <<< 8 =
        ∑ k ∈ Finset.range bs.length, (bs.getD k 0).toNat <<< (8 * (k + 1)) := by
      rw [ih, Nat.shiftLeft_eq, Finset.sum_mul]
      refine Finset.sum_congr rfl fun k _ => ?_
      rw [← Nat.shiftLeft_eq, ← Nat.shiftLeft_add, Nat.mul_succ]
    rw [natLE, shifted, List.length_cons, Finset.sum_range_succ', Nat.add_comm]
    simp

/-! ## The byte order of a descriptor -/

/-- Validation takes the byte order from bit 0 of the first byte, whatever the other bytes hold (R75). -/
theorem validate_order (use : Use) (hdr : Byte) (bs : List Byte) (d : Descr)
    (h : validate use (hdr :: bs) = .ok d) : d.order = orderOf hdr := by
  cases bs with
  | nil => simp [validate] at h
  | cons nf rest =>
    simp only [validate] at h
    split_ifs at h
    cases hp : parseFields use 0 0 rest with
    | error e => simp [hp] at h
    | ok fs =>
      simp only [hp, Except.ok.injEq] at h
      rw [← h]

/-- Settles O13: each formula of R54 by induction on the bytes it speaks of. -/
theorem byteOrderFormulas : Obligations.ByteOrderFormulas := by
  refine ⟨fun n v k hk => ⟨?_, ?_⟩, enc_length, fun bs => ⟨natBE_eq_sum bs, natLE_eq_sum bs⟩,
    fun _ _ => rfl, validate_order⟩
  · rw [ofNat_and_byteMask]
    exact bytesBE_getElem? n _ k hk
  · rw [ofNat_and_byteMask]
    exact bytesLE_getElem? n _ k hk

end Sys2Proof.Machine
end

section
/-! PROOFS. Descriptor validation (30_encoding.md rules R75 to R88): what a type byte's bits say of its field, the
order in which the checks of R85 fail, and where a second STRING field stops them. -/

namespace Sys2Proof.Machine

/-! ## The codes of a type byte -/

/-- No two ETYPE codes name one element type (R78). -/
theorem eq_etypeCode_of_etypeOf (code : BitVec 4) (e : EType) (h : etypeOf code = some e) : code = etypeCode e :=
  BitVec.eq_of_toNat_eq <|
    (List.getElem?_inj (List.getElem?_eq_some_iff.mp h).1 (by decide)).mp (h.trans (etypeOf_code e).symm)

/-- No two SHAPE codes name one shape (R79). -/
theorem eq_shapeCode_of_shapeOf (code : BitVec 2) (sh : Shape) (h : shapeOf code = some sh) : code = shapeCode sh :=
  BitVec.eq_of_toNat_eq <|
    (List.getElem?_inj (List.getElem?_eq_some_iff.mp h).1 (by decide)).mp (h.trans (shapeOf_code sh).symm)

theorem etypeOf_eq_none_iff (code : BitVec 4) : etypeOf code = none ↔ 10 < code.toNat := by
  simp only [etypeOf, List.getElem?_eq_none_iff, List.length_cons, List.length_nil]
  omega

theorem shapeOf_eq_none_iff (code : BitVec 2) : shapeOf code = none ↔ code.toNat = 3 := by
  have bound := code.isLt
  simp only [shapeOf, List.getElem?_eq_none_iff, List.length_cons, List.length_nil]
  omega

theorem etypeCode_le (e : EType) : (etypeCode e).toNat ≤ 10 := by cases e <;> decide

theorem etypeCode_eq_zero_iff (e : EType) : (etypeCode e).toNat = 0 ↔ e = .u8 := by cases e <;> decide

theorem etypeCode_eq_two_iff (e : EType) : (etypeCode e).toNat = 2 ↔ e = .u16 := by cases e <;> decide

/-- The integer types are ETYPE 0 to 7 (R78). -/
theorem seven_lt_etypeCode_iff (e : EType) : 7 < (etypeCode e).toNat ↔ isInt e = false := by cases e <;> decide

theorem shapeCode_ne_three (sh : Shape) : (shapeCode sh).toNat ≠ 3 := by cases sh <;> decide

theorem shapeCode_eq_zero_iff (sh : Shape) : (shapeCode sh).toNat = 0 ↔ sh = .scalar := by cases sh <;> decide

theorem shapeCode_eq_one_iff (sh : Shape) : (shapeCode sh).toNat = 1 ↔ sh = .array := by cases sh <;> decide

theorem shapeCode_eq_two_iff (sh : Shape) : (shapeCode sh).toNat = 2 ↔ sh = .string := by cases sh <;> decide

/-! ## The bits of a type byte, as numbers (R77) -/

theorem typeBits_reserved_iff (t : Byte) : t.getLsbD 7 = true ↔ 128 ≤ t.toNat := by
  have msb : t.getLsbD 7 = t.msb := rfl
  rw [msb, BitVec.msb_eq_decide, decide_eq_true_iff]

theorem typeBits_etype_toNat (t : Byte) : (t.extractLsb' 0 4).toNat = t.toNat % 16 := by
  simp [BitVec.extractLsb'_toNat]

theorem typeBits_shape_toNat (t : Byte) : (t.extractLsb' 4 2).toNat = t.toNat / 16 % 4 := by
  simp [BitVec.extractLsb'_toNat, Nat.shiftRight_eq_div_pow]

theorem typeBits_fold_iff (t : Byte) : t.getLsbD 6 = true ↔ t.toNat / 64 % 2 = 1 := by
  simp [BitVec.getLsbD, Nat.testBit_eq_decide_div_mod_eq]

theorem headerBits_reserved_iff (hdr : Byte) : hdr.extractLsb' 1 7 ≠ 0 ↔ hdr.toNat / 2 ≠ 0 := by
  have bound := hdr.isLt
  simp only [ne_eq, BitVec.toNat_eq, BitVec.extractLsb'_toNat, Nat.shiftRight_eq_div_pow, BitVec.ofNat_eq_ofNat,
    BitVec.toNat_ofNat]
  omega

/-- Every way a field's two bytes can be read, in the order of the checks that come before `checkField` (R85). -/
theorem parseField_cases (use : Use) (i strings : Nat) (t c : Byte) :
    (128 ≤ t.toNat ∧ parseField use i strings t c = .error (fieldUsage .reservedBit i)) ∨
    (¬ 128 ≤ t.toNat ∧ (10 < t.toNat % 16 ∨ t.toNat / 16 % 4 = 3) ∧
      parseField use i strings t c = .error (fieldUsage .reservedCode i)) ∨
    (¬ 128 ≤ t.toNat ∧ ∃ e sh, t.toNat % 16 = (etypeCode e).toNat ∧ t.toNat / 16 % 4 = (shapeCode sh).toNat ∧
      parseField use i strings t c = checkField use i strings ⟨e, sh, t.getLsbD 6, c⟩) := by
  unfold parseField
  by_cases reserved : t.getLsbD 7 = true
  · exact .inl ⟨(typeBits_reserved_iff t).mp reserved, if_pos reserved⟩
  · have clear := mt (typeBits_reserved_iff t).mpr reserved
    simp only [if_neg reserved]
    cases he : etypeOf (t.extractLsb' 0 4) with
    | none =>
      rw [etypeOf_eq_none_iff, typeBits_etype_toNat] at he
      exact .inr (.inl ⟨clear, .inl he, rfl⟩)
    | some e =>
      cases hsh : shapeOf (t.extractLsb' 4 2) with
      | none =>
        rw [shapeOf_eq_none_iff, typeBits_shape_toNat] at hsh
        exact .inr (.inl ⟨clear, .inr hsh, rfl⟩)
      | some sh =>
        refine .inr (.inr ⟨clear, e, sh, ?_, ?_, rfl⟩)
        · rw [← typeBits_etype_toNat, eq_etypeCode_of_etypeOf _ e he]
        · rw [← typeBits_shape_toNat, eq_shapeCode_of_shapeOf _ sh hsh]

/-- A field that passes its checks is a STRING exactly when its type byte says so. -/
theorem parseField_ok_isString (use : Use) (i strings : Nat) (t c : Byte) (f : Field)
    (h : parseField use i strings t c = .ok f) : f.shape = .string ↔ t.toNat / 16 % 4 = 2 := by
  obtain ⟨-, hp⟩ | ⟨-, -, hp⟩ | ⟨-, e, sh, -, shape, hp⟩ := parseField_cases use i strings t c
  · simp [hp] at h
  · simp [hp] at h
  · rw [checkField_ok _ _ _ _ _ (hp.symm.trans h), shape, shapeCode_eq_two_iff]

/-! ## The first failing check -/

/-- What the host reads of a validation that fails: the code of the error and its ERR_INFO. -/
def usageRead {α : Type} : Except BlockError α → Option (Byte × Nat)
  | .ok _ => none
  | .error e => some (e.code, e.info.toNat)

/-- R85's `SUBCODE | FIELD << 8` under the code of USAGE. -/
def usageWord (u : Nat × Nat) : Byte × Nat := (0x05, u.1 + u.2 * 256)

theorem usageRead_usage {α : Type} (cause : UsageCause) (field : Byte) :
    usageRead (.error (.usage cause field) : Except BlockError α) =
      some (usageWord (cause.code.toNat, field.toNat)) := by
  have high : (0#16 ++ field).toNat = field.toNat := by
    rw [BitVec.toNat_append, BitVec.toNat_ofNat, Nat.zero_mod, Nat.zero_shiftLeft, Nat.zero_or]
  have info : (BlockError.usage cause field).info.toNat = cause.code.toNat + field.toNat * 256 := by
    rw [BlockError.info, BitVec.toNat_append, ← Nat.shiftLeft_add_eq_or_of_lt cause.code.isLt, high, Nat.shiftLeft_eq,
      Nat.add_comm]
  rw [usageRead, info]
  rfl

theorem usageRead_fieldUsage {α : Type} (cause : UsageCause) (i : Nat) (hi : i < 256) :
    usageRead (.error (fieldUsage cause i) : Except BlockError α) = some (usageWord (cause.code.toNat, i)) := by
  rw [fieldUsage, usageRead_usage, BitVec.toNat_ofNat, Nat.mod_eq_of_lt hi]

/-- The checks of field `i` fail where R85, read from its two bytes, says that the first of them fails. -/
theorem usageRead_parseField (use : Use) (bytes : List Byte) (i strings : Nat) (hi : i < 256)
    (counted : 0 < strings ↔ ∃ j ∈ List.range i, rawShape bytes j = 2) :
    usageRead (parseField use i strings (bytes.getD (2 + 2 * i) 0) (bytes.getD (3 + 2 * i) 0)) =
      (fieldSubcode use bytes i).map fun sub => usageWord (sub, i) := by
  have shapeEq : rawShape bytes i = (bytes.getD (2 + 2 * i) 0).toNat / 16 % 4 := rfl
  have countZero (c : Byte) : c.toNat = 0 ↔ c = 0 := (BitVec.toNat_eq (y := 0)).symm
  unfold fieldSubcode
  simp only [← counted, shapeEq]
  generalize bytes.getD (2 + 2 * i) 0 = t
  generalize bytes.getD (3 + 2 * i) 0 = c
  obtain ⟨reserved, hp⟩ | ⟨clear, code, hp⟩ | ⟨clear, e, sh, etype, shape, hp⟩ := parseField_cases use i strings t c
  · rw [hp, if_pos reserved, usageRead_fieldUsage _ _ hi]
    rfl
  · rw [hp, if_neg clear, if_pos code, usageRead_fieldUsage _ _ hi]
    rfl
  · have legalCode : ¬ (10 < (etypeCode e).toNat ∨ (shapeCode sh).toNat = 3) := by
      simp [etypeCode_le, shapeCode_ne_three]
    have one_lt_succ : strings + 1 > 1 ↔ 0 < strings := by omega
    rw [hp, checkField]
    simp only [etype, shape, if_neg clear, if_neg legalCode, ← typeBits_fold_iff, ne_eq, countZero, etypeCode_eq_zero_iff,
      etypeCode_eq_two_iff, seven_lt_etypeCode_iff, shapeCode_eq_zero_iff, shapeCode_eq_one_iff, shapeCode_eq_two_iff,
      one_lt_succ]
    split_ifs
    any_goals exact usageRead_fieldUsage _ _ hi
    rfl

/-- The two bytes of field `i` and the bytes after them. -/
theorem drop_fieldBytes (bytes : List Byte) (i : Nat) (h : 2 + 2 * i + 1 < bytes.length) :
    bytes.drop (2 + 2 * i) =
      bytes.getD (2 + 2 * i) 0 :: bytes.getD (3 + 2 * i) 0 :: bytes.drop (2 + 2 * (i + 1)) := by
  have next : 2 + 2 * i + 1 = 3 + 2 * i := by omega
  have after : 3 + 2 * i + 1 = 2 + 2 * (i + 1) := by omega
  rw [List.drop_eq_getElem_cons (by omega), next, List.drop_eq_getElem_cons (by omega), after,
    List.getD_eq_getElem _ _ (by omega), List.getD_eq_getElem _ _ (by omega)]

theorem stringSeen_succ (bytes : List Byte) (i : Nat) :
    (∃ j ∈ List.range (i + 1), rawShape bytes j = 2) ↔
      (∃ j ∈ List.range i, rawShape bytes j = 2) ∨ rawShape bytes i = 2 := by
  simp [List.range_succ, or_and_right, exists_or]

theorem countString_pos_iff (strings : Nat) (f : Field) :
    0 < countString strings f ↔ 0 < strings ∨ f.shape = .string := by
  unfold countString
  split <;> simp_all

/-- The checks of the fields from `i` on fail where the first of those fields that fails one does. -/
theorem usageRead_parseFields (use : Use) (bytes : List Byte) (n i strings : Nat) (hi : i + n ≤ 255)
    (hlen : bytes.length = 2 + 2 * (i + n))
    (counted : 0 < strings ↔ ∃ j ∈ List.range i, rawShape bytes j = 2) :
    usageRead (parseFields use i strings (bytes.drop (2 + 2 * i))) =
      ((List.range' i n).findSome? fun k => (fieldSubcode use bytes k).map fun sub => (sub, k)).map usageWord := by
  induction n generalizing i strings with
  | zero =>
    rw [List.drop_eq_nil_of_le (by omega)]
    rfl
  | succ n ih =>
    have head := usageRead_parseField use bytes i strings (by omega) counted
    rw [drop_fieldBytes bytes i (by omega), parseFields, List.range'_succ, List.findSome?_cons]
    cases hp : parseField use i strings (bytes.getD (2 + 2 * i) 0) (bytes.getD (3 + 2 * i) 0) with
    | error e =>
      rw [hp] at head
      cases hsub : fieldSubcode use bytes i with
      | none => simp [hsub, usageRead] at head
      | some sub => rw [hsub] at head; exact head
    | ok f =>
      rw [hp] at head
      have passes : fieldSubcode use bytes i = none := Option.map_eq_none_iff.mp head.symm
      have shape : f.shape = .string ↔ rawShape bytes i = 2 := parseField_ok_isString _ _ _ _ _ _ hp
      have rest := ih (i + 1) (countString strings f) (by omega) (by omega)
        (by rw [countString_pos_iff, stringSeen_succ, counted, shape])
      simp only [passes, Option.map_none]
      rw [← rest]
      cases parseFields use (i + 1) (countString strings f) (bytes.drop (2 + 2 * (i + 1))) <;> rfl

/-- Validation fails where the reading of the raw bytes says that the first check of R85 fails. -/
theorem usageRead_validate (use : Use) (bytes : List Byte) :
    usageRead (validate use bytes) = (firstUsage use bytes).map usageWord := by
  match bytes with
  | [] => rfl
  | [_] => rfl
  | hdr :: nf :: rest =>
    have lengthBad : ((hdr :: nf :: rest).length < 2 ∨ (hdr :: nf :: rest).length ≠ 2 + 2 * nf.toNat) ↔
        rest.length ≠ 2 * nf.toNat := by
      simp only [List.length_cons]
      omega
    simp only [validate, firstUsage, List.getD_cons_succ, List.getD_cons_zero, lengthBad, ← headerBits_reserved_iff]
    split_ifs with length header empty
    · exact usageRead_usage _ _
    · exact usageRead_usage _ _
    · exact usageRead_usage _ _
    · have fields := usageRead_parseFields use (hdr :: nf :: rest) nf.toNat 0 0 (by have := nf.isLt; omega)
        (by simp only [List.length_cons]; omega) (by simp)
      rw [List.range_eq_range', ← fields]
      change _ = usageRead (parseFields use 0 0 rest)
      cases parseFields use 0 0 rest <;> rfl

/-- Settles O60: the checks of the header, then those of each field in order. -/
theorem descriptorChecksInOrder : Obligations.DescriptorChecksInOrder := by
  intro use bytes
  refine Eq.trans ?_ (usageRead_validate use bytes)
  cases validate use bytes <;> rfl

/-! ## The second STRING field -/

/-- R75: the two bytes of each field in turn. -/
abbrev fieldBytes (fs : List Field) : List Byte := fs.flatMap fun f => [typeByte f, f.count]

theorem fieldBytes_length (fs : List Field) : (fieldBytes fs).length = 2 * fs.length := by
  simp [Nat.mul_comm]

theorem typeByte_reservedBit_clear (f : Field) : ¬ (typeByte f).getLsbD 7 = true := by
  simp only [typeByte, BitVec.getLsbD_append]
  simp

theorem typeByte_fold (f : Field) : (typeByte f).getLsbD 6 = f.fold := by
  simp only [typeByte, BitVec.getLsbD_append]
  simp

theorem typeByte_etype (f : Field) : (typeByte f).extractLsb' 0 4 = etypeCode f.etype :=
  BitVec.extractLsb'_append_eq_right

theorem typeByte_shape (f : Field) : (typeByte f).extractLsb' 4 2 = shapeCode f.shape :=
  (BitVec.extractLsb'_append_eq_of_le (by decide)).trans BitVec.extractLsb'_append_eq_right

/-- The two bytes of a field are read back as the field, whose checks follow. -/
theorem parseField_typeByte (use : Use) (i strings : Nat) (f : Field) :
    parseField use i strings (typeByte f) f.count = checkField use i strings f := by
  rw [parseField, if_neg (typeByte_reservedBit_clear f), typeByte_etype, typeByte_shape, typeByte_fold, etypeOf_code,
    shapeOf_code]

/-- The checks of R85 on a field that is legal but, perhaps, for the STRING fields before it. -/
theorem checkField_of_legal (use : Use) (i strings : Nat) (f : Field) (hcount : f.countOk = true)
    (hstring : f.stringOk = true) (hfold : f.foldOk use = true) (hcmd : use = .tx → i = 0 → f.commandOk = true) :
    checkField use i strings f =
      if f.shape = .string ∧ 0 < strings then .error (fieldUsage .manyStrings i) else .ok f := by
  have countFits : ¬ ((f.shape = .scalar ∧ f.count ≠ 0) ∨ (f.shape ≠ .scalar ∧ f.count = 0)) := by
    by_cases scalar : f.shape = .scalar <;> simp_all [Field.countOk]
  have bytesOnly : ¬ (f.shape = .string ∧ f.etype ≠ .u8) := by
    simpa [Field.stringOk, imp_iff_not_or] using hstring
  have foldFits : ¬ (f.fold = true ∧ (f.shape ≠ .array ∨ isInt f.etype = false ∨ use = .tx)) := by
    rintro ⟨fold, illegal⟩
    cases use <;> simp_all [Field.foldOk, isInt_eq_contains]
  have command : ¬ (use = .tx ∧ i = 0 ∧ ¬ (f.shape = .scalar ∧ (f.etype = .u8 ∨ f.etype = .u16))) := by
    rintro ⟨tx, atZero, bad⟩
    exact bad (by simpa [Field.commandOk] using hcmd tx atZero)
  rw [checkField, if_neg countFits, if_neg bytesOnly, if_neg foldFits, if_neg command]
  simp only [gt_iff_lt, Nat.lt_add_left_iff_pos]

theorem countString_add_stringCount (strings : Nat) (f : Field) (fs : List Field) :
    countString strings f + stringCount fs = strings + stringCount (f :: fs) := by
  by_cases h : f.shape = .string
  · simp [countString, stringCount, h]
    omega
  · simp [countString, stringCount, h]

/-- The checks stop at the first STRING field that has one before it, if every field is legal otherwise. -/
theorem parseFields_second_string (use : Use) (fs : List Field) (i strings : Nat)
    (hlegal : ∀ f ∈ fs, f.countOk = true ∧ f.stringOk = true ∧ f.foldOk use = true)
    (hcmd : use = .tx → i = 0 → ∀ f ∈ fs.head?, f.commandOk = true)
    (hfew : strings ≤ 1) (hmany : 2 ≤ strings + stringCount fs) :
    ∃ k f, fs[k]? = some f ∧ f.shape = .string ∧ strings + stringCount (fs.take k) = 1 ∧
      parseFields use i strings (fieldBytes fs) = .error (fieldUsage .manyStrings (i + k)) := by
  induction fs generalizing i strings with
  | nil =>
    have none : stringCount [] = 0 := rfl
    omega
  | cons f fs ih =>
    obtain ⟨⟨hcount, hstring, hfold⟩, hrest⟩ := List.forall_mem_cons.mp hlegal
    have head := checkField_of_legal use i strings f hcount hstring hfold
      fun htx hi => hcmd htx hi f rfl
    rw [← parseField_typeByte] at head
    have bytes : fieldBytes (f :: fs) = typeByte f :: f.count :: fieldBytes fs := rfl
    simp only [bytes, parseFields]
    by_cases second : f.shape = .string ∧ 0 < strings
    · rw [if_pos second] at head
      refine ⟨0, f, rfl, second.1, ?_, by rw [head]; rfl⟩
      have none : stringCount [] = 0 := rfl
      rw [List.take_zero, none]
      omega
    · rw [if_neg second] at head
      have total := countString_add_stringCount strings f
      have few : countString strings f ≤ 1 := by
        unfold countString
        split <;> simp_all
      obtain ⟨k, g, hg, shape, one, stops⟩ :=
        ih (i + 1) (countString strings f) hrest (by omega) few (by rw [total]; exact hmany)
      refine ⟨k + 1, g, hg, shape, by rw [List.take_succ_cons, ← total]; exact one, ?_⟩
      rw [head]
      simp only [stops]
      congr 2
      omega

theorem orderByte_reservedBits_clear (o : Order) : (orderByte o).extractLsb' 1 7 = 0 := by cases o <;> rfl

/-- Validation of a descriptor's own bytes passes the checks of the header and comes to those of the fields. -/
theorem validate_assemble_error (use : Use) (d : Descr) (e : BlockError) (hlen : d.lengthOk = true)
    (hcmd : d.commandOk use = true) (h : parseFields use 0 0 (fieldBytes d.fields) = .error e) :
    validate use (assemble d) = .error e := by
  have few : d.fields.length ≤ 255 := of_decide_eq_true hlen
  have count : (BitVec.ofNat 8 d.fields.length).toNat = d.fields.length := by
    rw [BitVec.toNat_ofNat]
    omega
  have length : ¬ (fieldBytes d.fields).length ≠ 2 * (BitVec.ofNat 8 d.fields.length).toNat := by
    rw [count, fieldBytes_length]
    omega
  have hasCommand : ¬ (use = .tx ∧ BitVec.ofNat 8 d.fields.length = 0) := by
    rintro ⟨rfl, empty⟩
    rw [BitVec.toNat_eq, count] at empty
    simp [Descr.commandOk, List.length_eq_zero_iff.mp empty] at hcmd
  rw [assemble, validate, if_neg length, if_neg (by simp [orderByte_reservedBits_clear]), if_neg hasCommand, h]

/-- Settles O17: the checks of the fields stop at the second STRING field, and those of the header have passed. -/
theorem secondStringFieldRejected : Obligations.SecondStringFieldRejected := by
  intro use d hlen hcmd hlegal hmany
  have commandField : use = .tx → 0 = 0 → ∀ f ∈ d.fields.head?, f.commandOk = true := by
    rintro rfl - f hf
    obtain ⟨fs, fields⟩ := List.head?_eq_some_iff.mp hf
    simpa [Descr.commandOk, fields] using hcmd
  obtain ⟨k, f, hf, shape, one, stops⟩ :=
    parseFields_second_string use d.fields 0 0 hlegal commandField (by omega) (by omega)
  rw [Nat.zero_add] at one stops
  exact ⟨k, f, hf, shape, one, validate_assemble_error use d _ hlen hcmd stops⟩

end Sys2Proof.Machine
end

section
/-! PROOFS. The argument list (40_field_codec.md rule R110): what each argument adds to the flattened arguments, and the
LIST inside a LIST that stops the flattening. -/

namespace Sys2Proof.Machine

/-! ## One LIST argument -/

theorem spliceList_cons_of_not_list (k : Nat) (x : Value) (xs : List Value) (h : isListValue x = false) :
    spliceList k (x :: xs) = (spliceList (k + 1) xs).map (x :: ·) := by
  rw [spliceList]
  · cases spliceList (k + 1) xs <;> rfl
  · rintro ys rfl
    cases h

/-- Elements that are no LIST go into the argument list as they are, and what follows them is spliced after them. -/
theorem spliceList_append (k : Nat) (good rest : List Value) (h : ∀ x ∈ good, isListValue x = false) :
    spliceList k (good ++ rest) = (spliceList (k + good.length) rest).map (good ++ ·) := by
  induction good generalizing k with
  | nil => exact (congrFun Except.map_id _).symm
  | cons x good ih =>
    obtain ⟨hx, hgood⟩ := List.forall_mem_cons.mp h
    have index : k + 1 + good.length = k + (x :: good).length := by rw [List.length_cons]; omega
    rw [List.cons_append, spliceList_cons_of_not_list k x _ hx, ih (k + 1) hgood, index]
    cases spliceList (k + (x :: good).length) rest <;> rfl

theorem spliceList_of_no_list (k : Nat) (xs : List Value) (h : ∀ x ∈ xs, isListValue x = false) :
    spliceList k xs = .ok xs := by
  have all := spliceList_append k xs [] h
  simpa [spliceList, Except.map] using all

/-- The first LIST among the elements is an error at its own index. -/
theorem spliceList_nested (k : Nat) (good : List Value) (ys : Values) (bad : List Value)
    (h : ∀ x ∈ good, isListValue x = false) :
    spliceList k (good ++ .list ys :: bad) = .error (.packArg (k + good.length) false) :=
  spliceList_append k good (.list ys :: bad) h

/-! ## The arguments in order -/

/-- An argument without nested LIST adds what R110 says, and the next index counts what it added. -/
theorem flattenFrom_cons (k : Nat) (v : Value) (vs : List Value) (h : noNestedList v = true) :
    flattenFrom k (v :: vs) = (flattenFrom (k + (spliced v).length) vs).map (spliced v ++ ·) := by
  cases v with
  | list xs =>
    have flat : ∀ x ∈ xs.toList, isListValue x = false := by simpa [noNestedList, isListValue, spliced] using h
    simp only [flattenFrom, spliceList_of_no_list k xs.toList flat, spliced]
    cases flattenFrom (k + xs.toList.length) vs <;> rfl
  | _ =>
    simp only [flattenFrom, spliced, List.length_singleton]
    cases flattenFrom (k + 1) vs <;> rfl

theorem flattenFrom_append (k : Nat) (before rest : List Value) (h : ∀ v ∈ before, noNestedList v = true) :
    flattenFrom k (before ++ rest) =
      (flattenFrom (k + (before.flatMap spliced).length) rest).map (before.flatMap spliced ++ ·) := by
  induction before generalizing k with
  | nil => exact (congrFun Except.map_id _).symm
  | cons v before ih =>
    obtain ⟨hv, hbefore⟩ := List.forall_mem_cons.mp h
    have index : k + (spliced v).length + (before.flatMap spliced).length =
        k + ((v :: before).flatMap spliced).length := by
      rw [List.flatMap_cons, List.length_append, Nat.add_assoc]
    rw [List.cons_append, flattenFrom_cons k v _ hv, ih _ hbefore, index, List.flatMap_cons]
    cases flattenFrom (k + (spliced v ++ before.flatMap spliced).length) rest with
    | error e => rfl
    | ok b => simp [Except.map]

/-- Settles O19: the arguments before the end, or before the LIST that holds a LIST, are spliced one by one. -/
theorem flattenSplicesLists : Obligations.FlattenSplicesLists := by
  refine ⟨fun vin h => ?_, fun before after xs good bad ys hbefore hxs hgood => ?_⟩
  · have all := flattenFrom_append 0 vin [] h
    simpa [flatten, flattenFrom, Except.map] using all
  · rw [flatten, flattenFrom_append 0 before _ hbefore, flattenFrom, hxs, spliceList_nested _ good ys bad hgood,
      Nat.zero_add]
    rfl

end Sys2Proof.Machine
end

section
/-! PROOFS. Scalars and the fixed decode (40_field_codec.md rules R115, R116). -/

namespace Sys2Proof.Machine

/-! ## One scalar -/

theorem natBE_lt (bs : List Byte) : natBE bs < 2 ^ (8 * bs.length) := by
  induction bs with
  | nil => exact Nat.one_pos
  | cons b bs ih =>
    have top : b.toNat * 2 ^ (8 * bs.length) ≤ 255 * 2 ^ (8 * bs.length) :=
      Nat.mul_le_mul_right _ (Nat.le_of_lt_succ b.isLt)
    rw [natBE, Nat.shiftLeft_eq, List.length_cons, Nat.mul_succ, Nat.pow_add]
    omega

theorem natLE_lt (bs : List Byte) : natLE bs < 2 ^ (8 * bs.length) := by
  induction bs with
  | nil => exact Nat.one_pos
  | cons b bs ih =>
    have low := b.isLt
    rw [natLE, Nat.shiftLeft_eq, List.length_cons, Nat.mul_add, Nat.pow_add]
    omega

/-- A byte sequence weighs less than the first power of two that its length does not hold (R54). -/
theorem decU_lt (o : Order) (bs : List Byte) : decU o bs < 2 ^ (8 * bs.length) := by
  cases o with
  | be => exact natBE_lt bs
  | le => exact natLE_lt bs

/-- The bytes of an unsigned integer fill a vector of their own width. -/
theorem toNat_ofNat_decU (o : Order) (bs : List Byte) (n : Nat) (h : bs.length = n) :
    (BitVec.ofNat (8 * n) (decU o bs)).toNat = decU o bs := by
  subst h
  rw [BitVec.toNat_ofNat, Nat.mod_eq_of_lt (decU_lt o bs)]

theorem headD_ne_zero_iff (bs : List Byte) (h : bs ≠ []) : bs.headD 0 ≠ 0 ↔ bs[0]? ≠ some 0 := by
  cases bs with
  | nil => exact absurd rfl h
  | cons b bs => simp

/-- Settles O26: by the element type; the bits of a float are all of its bytes. -/
theorem scalarDecodeByType : Obligations.ScalarDecodeByType := by
  intro o e bs hlen
  refine ⟨fun he => ?_, fun he => ?_, ?_, ?_, ?_⟩
  · fin_cases he <;> rfl
  · fin_cases he <;> rfl
  · rintro rfl
    have nonempty : bs ≠ [] := List.length_pos_iff.mp (by rw [hlen]; exact etypeSize_pos .bool)
    simp only [decScalar, headD_ne_zero_iff bs nonempty]
  · rintro rfl
    exact ⟨_, rfl, toNat_ofNat_decU o bs 4 hlen⟩
  · rintro rfl
    exact ⟨_, rfl, toNat_ofNat_decU o bs 8 hlen⟩

/-! ## The fixed decode -/

@[simp] theorem fixedFields_length (o : Order) (bs : List Byte) (c : Nat) (fs : List Field) :
    (fixedFields o bs c fs).length = fs.length := by
  induction fs generalizing c with
  | nil => rfl
  | cons f fs ih => rw [fixedFields, List.length_cons, ih, List.length_cons]

/-- Field `i` is decoded after the bytes of the fields before it. -/
theorem fixedFields_getElem? (o : Order) (bs : List Byte) (c : Nat) (fs : List Field) (i : Nat) (f : Field)
    (h : fs[i]? = some f) :
    (fixedFields o bs c fs)[i]? = some (decScalar o f.etype
      (memRead bs (c + ((fs.take i).map fun g => etypeSize g.etype).sum) (etypeSize f.etype))) := by
  induction fs generalizing c i with
  | nil => cases h
  | cons g fs ih =>
    cases i with
    | zero =>
      obtain rfl : g = f := Option.some.inj h
      rfl
    | succ i =>
      rw [fixedFields, List.getElem?_cons_succ, ih _ i h, List.take_succ_cons, List.map_cons, List.sum_cons,
        Nat.add_assoc]

/-- R27: ERR_INFO of a DECODE_LEN that no field is to blame for. -/
theorem decodeLen_info_noField (pos : Nat) :
    (BlockError.decodeLen pos 0xFF).info = 0x00FF0000 ||| BitVec.ofNat 32 (pos % 65536) := by
  have low : BitVec.ofNat 32 (pos % 65536) = 0#16 ++ BitVec.ofNat 16 pos := by
    apply BitVec.eq_of_toNat_eq
    rw [BitVec.toNat_append]
    simp only [BitVec.toNat_ofNat, Nat.zero_mod, Nat.zero_shiftLeft, Nat.zero_or]
    omega
  have high : (0x00FF0000 : Word) = 0x00FF#16 ++ 0#16 := by decide
  rw [low, high, BitVec.or_append, BitVec.or_zero, BitVec.zero_or]
  rfl

/-- A command that succeeds with values on VOUT and no flag leaves STATUS and ERR_INFO 0 (R255). -/
theorem succeed_vout_only (s : State) (vs : List Value) :
    s.succeed { vout := some vs } =
      { s with dout := [], vout := some vs, rdata := 0, status := 0, errInfo := 0 } := by
  have status : statusWord 0 {} = 0 := by decide
  rw [State.succeed, status]

/-- R255: what DECODE_LEN writes. -/
theorem raise_decodeLen (s : State) (pos : Nat) (field : Byte) :
    s.raise (.decodeLen pos field) =
      { s with
        status := 0x00000014, errInfo := (BlockError.decodeLen pos field).info, dout := [], vout := none, rdata := 0
        errLog := .decodeLen pos field :: s.errLog } := by
  have status : statusWord 0x14 {} = 0x00000014 := by decide
  simp only [State.raise, BlockError.code, BlockError.flags, status]

/-- R122: with a legal descriptor UNPACK comes to what the decoder of its choice makes of DIN. -/
theorem unpackBody_of_valid (p : Ports) (d : Descr) (hdesc : p.desc ≠ []) (hd : validate .rx p.desc = .ok d) :
    unpackBody p = decodeAs (isVar d) d p.din := by
  have present : ¬ p.desc.length = 0 := mt List.length_eq_zero_iff.mp hdesc
  rw [unpackBody, if_neg present, hd]

/-- Settles O25: the fixed decode's only check is that of the length, before any field is read. -/
theorem unpackFixedFields : Obligations.UnpackFixedFields := by
  intro s d hdesc hd hfixed
  have run : exec .unpack s = .next (s.complete (decodeAs false d s.ports.din)) := by
    rw [exec_eq_complete .unpack s rfl, bodyOf, unpackBody_of_valid s.ports d hdesc hd, hfixed]
  refine ⟨fun hlen => ?_, fun hlen => ?_⟩
  · have decoded : decodeAs false d s.ports.din = .ok { vout := some (fixedFields d.order s.ports.din 0 d.fields) } := by
      simp [decodeAs, fixedDecode, hlen]
    refine ⟨fixedFields d.order s.ports.din 0 d.fields, ?_, fixedFields_length _ _ _ _, fun i f hf => ?_⟩
    · rw [run, decoded, complete_ok, succeed_vout_only]
    · rw [fixedFields_getElem? _ _ _ _ i f hf, Nat.zero_add]
  · have refused : decodeAs false d s.ports.din = .error (.decodeLen s.ports.din.length 0xFF) := by
      simp [decodeAs, fixedDecode, hlen]
    refine ⟨.decodeLen s.ports.din.length 0xFF :: s.errLog, ?_⟩
    rw [run, refused, complete_error, raise_decodeLen, decodeLen_info_noField]

end Sys2Proof.Machine
end

section
/-! PROOFS. The dynamic decode (40_field_codec.md rules R117 to R120): closed forms of the two scans and of a fold, and the
walk of the read cursor. -/

namespace Sys2Proof.Machine

/-! ## Array scans -/

/-- One more whole element is left where the data reach past its end. -/
theorem wholeElements_step (size len c : Nat) (hsize : 0 < size) (h : c + size ≤ len) :
    (len - c) / size = (len - (c + size)) / size + 1 := by
  have left : len - c = len - (c + size) + size := by omega
  rw [left, Nat.add_div_right _ hsize]

theorem scanArray_eq (o : Order) (e : EType) (bs : List Byte) (count c : Nat) :
    scanArray o e bs count c =
      ((List.range (min count ((bs.length - c) / etypeSize e))).map fun j =>
          decScalar o e (memRead bs (c + j * etypeSize e) (etypeSize e)),
        c + min count ((bs.length - c) / etypeSize e) * etypeSize e) := by
  induction count generalizing c with
  | zero => simp [scanArray]
  | succ count ih =>
    rw [scanArray]
    split_ifs with whole
    · have offset (j : Nat) : c + etypeSize e + j * etypeSize e = c + (j + 1) * etypeSize e := by
        rw [Nat.succ_mul, Nat.add_assoc, Nat.add_comm (etypeSize e)]
      rw [ih, wholeElements_step _ _ _ (etypeSize_pos e) whole, Nat.add_min_add_right, List.range_succ_eq_map,
        List.map_cons, List.map_map]
      simp only [offset, Nat.zero_mul, Nat.add_zero]
      rfl
    · have size := etypeSize_pos e
      have noElement : (bs.length - c) / etypeSize e = 0 := Nat.div_eq_of_lt (by omega)
      simp [noElement]

@[simp] theorem intsOf_map_int (is : List Int) : intsOf (is.map .int) = is := by
  rw [intsOf, List.filterMap_map]
  exact List.filterMap_some

theorem arrValue_fold (is : List Int) (e : EType) (h : is ≠ []) :
    arrValue (is.map .int) true e = .arr (Values.ofList [.int (foldBits (8 * etypeSize e) is)]) := by
  rw [arrValue, if_neg (mt List.map_eq_nil_iff.mp h), if_pos rfl, intsOf_map_int]
  rfl

/-- Settles O28: the scan's closed form by induction on the maximum. -/
theorem arrayScanTakesWholeElements : Obligations.ArrayScanTakesWholeElements :=
  ⟨scanArray_eq, fun _ _ => rfl, fun _ _ h => if_neg h, arrValue_fold⟩

/-! ## String scans -/

theorem scanString_eq (bs : List Byte) (count c : Nat) :
    scanString bs count c =
      (((bs.drop c).take count).takeWhile fun b => b != 0,
        c + (((bs.drop c).take count).takeWhile fun b => b != 0).length +
          if 0 ∈ (bs.drop c).take count then 1 else 0) := by
  induction count generalizing c with
  | zero => simp [scanString]
  | succ count ih =>
    rw [scanString]
    cases hb : bs[c]? with
    | none => simp [List.drop_eq_nil_of_le (List.getElem?_eq_none_iff.mp hb)]
    | some b =>
      have next : bs.drop c = b :: bs.drop (c + 1) := by
        obtain ⟨hc, rfl⟩ := List.getElem?_eq_some_iff.mp hb
        exact List.drop_eq_getElem_cons hc
      rw [next, List.take_succ_cons]
      by_cases zero : b = 0#8
      · simp [zero]
      · simp [zero, Ne.symm zero, ih]
        omega

/-- Settles O29: the scan's closed form by induction on the number of bytes it may take. -/
theorem stringScanStopsAtZero : Obligations.StringScanStopsAtZero :=
  ⟨scanString_eq, fun _ => rfl⟩

/-! ## Folds -/

theorem foldBits_eq_sum (w : Nat) (is : List Int) :
    foldBits w is = ∑ j ∈ Finset.range is.length, zext w (is.getD j 0) <<< (w * (is.length - 1 - j)) := by
  induction is with
  | nil => rfl
  | cons i is ih =>
    have place (j : Nat) : is.length + 1 - 1 - (j + 1) = is.length - 1 - j := by omega
    rw [foldBits, ih, List.length_cons, Finset.sum_range_succ', Nat.add_comm]
    simp only [place]
    simp

theorem foldBits_lt (w : Nat) (is : List Int) : foldBits w is < 2 ^ (w * is.length) := by
  induction is with
  | nil => exact Nat.one_pos
  | cons i is ih =>
    have top : (zext w i + 1) * 2 ^ (w * is.length) ≤ 2 ^ w * 2 ^ (w * is.length) :=
      Nat.mul_le_mul_right _ (zext_lt w i)
    rw [Nat.succ_mul] at top
    rw [foldBits, Nat.shiftLeft_eq, List.length_cons, Nat.mul_succ, Nat.add_comm (w * _), Nat.pow_add]
    omega

/-- Settles O30: the sum and its bound, each by induction on the elements. -/
theorem foldConcatenatesElements : Obligations.FoldConcatenatesElements :=
  fun w is => ⟨foldBits_eq_sum w is, foldBits_lt w is⟩

/-! ## The walk of the read cursor -/

/-- A field is decoded to a value and a next cursor exactly by a step of the walk. -/
theorem dynField_ok_iff_cursorStep (o : Order) (bs : List Byte) (cur : Nat → Nat) (j i : Nat) (f : Field) (v : Value) :
    dynField o bs i (cur j) f = .ok (v, cur (j + 1)) ↔ cursorStep o bs cur j f v := by
  obtain ⟨shape, short, hf⟩ | ⟨shape, whole, hf⟩ | ⟨shape, hf⟩ | ⟨shape, hf⟩ := dynField_cases o bs i (cur j) f
  · simp [hf, cursorStep, shape, Nat.not_le.mpr short]
  · simp [hf, cursorStep, shape, whole, eq_comm]
  · simp [hf, cursorStep, shape, eq_comm]
  · simp [hf, cursorStep, shape, eq_comm]

/-- A field fails exactly where it is a SCALAR with fewer bytes left at the cursor than its size. -/
theorem dynField_error_iff (o : Order) (bs : List Byte) (i c : Nat) (f : Field) (e : BlockError) :
    dynField o bs i c f = .error e ↔
      f.shape = .scalar ∧ c + etypeSize f.etype > bs.length ∧ e = .decodeLen c (BitVec.ofNat 8 i) := by
  obtain ⟨shape, short, hf⟩ | ⟨shape, whole, hf⟩ | ⟨shape, hf⟩ | ⟨shape, hf⟩ := dynField_cases o bs i c f
  · simp [hf, shape, short, eq_comm]
  · simp [hf, Nat.not_lt.mpr whole]
  · simp [hf, shape]
  · simp [hf, shape]

/-- The walk that begins at `c` and goes on as `cur`. -/
def cursorFrom (c : Nat) (cur : Nat → Nat) : Nat → Nat
  | 0 => c
  | j + 1 => cur j

/-- Some walk from cursor `c` decodes the fields to the values. -/
def WalkDecodes (o : Order) (bs : List Byte) (c : Nat) (fs : List Field) (vs : List Value) : Prop :=
  vs.length = fs.length ∧ ∃ cur : Nat → Nat, cur 0 = c ∧
    ∀ j f v, fs[j]? = some f → vs[j]? = some v → cursorStep o bs cur j f v

/-- Some walk from cursor `c` over the fields, the first of which has index `i`, ends with `e` at a SCALAR that runs
short. -/
def WalkStops (o : Order) (bs : List Byte) (i c : Nat) (fs : List Field) (e : BlockError) : Prop :=
  ∃ (cur : Nat → Nat) (j : Nat) (f : Field), cur 0 = c ∧
    (∀ k g, k < j → fs[k]? = some g → ∃ v, cursorStep o bs cur k g v) ∧
    fs[j]? = some f ∧ dynField o bs (i + j) (cur j) f = .error e

/-- A walk over a first field is a step and a walk over the others. -/
theorem walkDecodes_cons (o : Order) (bs : List Byte) (i c : Nat) (f : Field) (fs : List Field) (vs : List Value) :
    WalkDecodes o bs c (f :: fs) vs ↔
      ∃ v c' rest, dynField o bs i c f = .ok (v, c') ∧ WalkDecodes o bs c' fs rest ∧ vs = v :: rest := by
  constructor
  · rintro ⟨len, cur, rfl, steps⟩
    obtain ⟨v, rest, rfl⟩ := List.exists_cons_of_length_eq_add_one len
    have first := (dynField_ok_iff_cursorStep o bs cur 0 i f v).mpr (steps 0 f v rfl rfl)
    exact ⟨v, cur 1, rest, first, ⟨Nat.succ.inj len, fun j => cur (j + 1), rfl, fun j => steps (j + 1)⟩, rfl⟩
  · rintro ⟨v, c', rest, first, ⟨len, cur, rfl, steps⟩, rfl⟩
    refine ⟨congrArg Nat.succ len, cursorFrom c cur, rfl, fun j g w hg hw => ?_⟩
    cases j with
    | zero =>
      obtain rfl : f = g := Option.some.inj hg
      obtain rfl : v = w := Option.some.inj hw
      exact (dynField_ok_iff_cursorStep o bs (cursorFrom c cur) 0 i f v).mp first
    | succ j => exact steps j g w hg hw

/-- A walk stops at its first field, or decodes it and stops at one of the others. -/
theorem walkStops_cons (o : Order) (bs : List Byte) (i c : Nat) (f : Field) (fs : List Field) (e : BlockError) :
    WalkStops o bs i c (f :: fs) e ↔
      dynField o bs i c f = .error e ∨
        ∃ v c', dynField o bs i c f = .ok (v, c') ∧ WalkStops o bs (i + 1) c' fs e := by
  constructor
  · rintro ⟨cur, j, g, rfl, steps, hg, stops⟩
    cases j with
    | zero =>
      obtain rfl : f = g := Option.some.inj hg
      exact .inl stops
    | succ j =>
      obtain ⟨v, first⟩ := steps 0 f j.succ_pos rfl
      rw [← Nat.add_assoc, Nat.add_right_comm] at stops
      exact .inr ⟨v, cur 1, (dynField_ok_iff_cursorStep ..).mpr first, fun k => cur (k + 1), j, g, rfl,
        fun k h hk => steps (k + 1) h (Nat.succ_lt_succ hk), hg, stops⟩
  · rintro (stops | ⟨v, c', first, cur, j, g, rfl, steps, hg, stops⟩)
    · exact ⟨fun _ => c, 0, f, rfl, fun k _ hk => absurd hk k.not_lt_zero, rfl, stops⟩
    · rw [Nat.add_right_comm, Nat.add_assoc] at stops
      refine ⟨cursorFrom c cur, j + 1, g, rfl, fun k h hk hh => ?_, hg, stops⟩
      cases k with
      | zero =>
        obtain rfl : f = h := Option.some.inj hh
        exact ⟨v, (dynField_ok_iff_cursorStep o bs (cursorFrom c cur) 0 i f v).mp first⟩
      | succ k => exact steps k h (Nat.lt_of_succ_lt_succ hk) hh

theorem dynFields_cons_ok_iff (o : Order) (bs : List Byte) (i c : Nat) (f : Field) (fs : List Field)
    (vs : List Value) :
    dynFields o bs i c (f :: fs) = .ok vs ↔
      ∃ v c' rest, dynField o bs i c f = .ok (v, c') ∧ dynFields o bs (i + 1) c' fs = .ok rest ∧ vs = v :: rest := by
  rw [dynFields]
  cases dynField o bs i c f with
  | error e => simp
  | ok r =>
    obtain ⟨v, c'⟩ := r
    cases hfs : dynFields o bs (i + 1) c' fs <;> simp [hfs, eq_comm]

theorem dynFields_cons_error_iff (o : Order) (bs : List Byte) (i c : Nat) (f : Field) (fs : List Field)
    (e : BlockError) :
    dynFields o bs i c (f :: fs) = .error e ↔
      dynField o bs i c f = .error e ∨
        ∃ v c', dynField o bs i c f = .ok (v, c') ∧ dynFields o bs (i + 1) c' fs = .error e := by
  rw [dynFields]
  cases dynField o bs i c f with
  | error e' => simp
  | ok r =>
    obtain ⟨v, c'⟩ := r
    cases hfs : dynFields o bs (i + 1) c' fs <;> simp [hfs]

theorem dynFields_ok_iff_walk (o : Order) (bs : List Byte) (fs : List Field) (i c : Nat) (vs : List Value) :
    dynFields o bs i c fs = .ok vs ↔ WalkDecodes o bs c fs vs := by
  induction fs generalizing i c vs with
  | nil =>
    constructor
    · rintro ⟨⟩
      exact ⟨rfl, fun _ => c, rfl, nofun⟩
    · rintro ⟨len, -⟩
      rw [dynFields, List.length_eq_zero_iff.mp len]
  | cons f fs ih =>
    rw [dynFields_cons_ok_iff, walkDecodes_cons o bs i]
    simp only [ih (i + 1)]

theorem dynFields_error_iff_walk (o : Order) (bs : List Byte) (fs : List Field) (i c : Nat) (e : BlockError) :
    dynFields o bs i c fs = .error e ↔ WalkStops o bs i c fs e := by
  induction fs generalizing i c with
  | nil => simp [dynFields, WalkStops]
  | cons f fs ih =>
    rw [dynFields_cons_error_iff, walkStops_cons]
    simp only [ih (i + 1)]

/-- Settles O27: the decoder's recursion over the fields is the walk's. -/
theorem dynamicDecodeWalksCursor : Obligations.DynamicDecodeWalksCursor := by
  intro d bs
  refine ⟨fun vs => dynFields_ok_iff_walk d.order bs d.fields 0 0 vs, fun e => ?_⟩
  rw [dynDecode, dynFields_error_iff_walk, WalkStops]
  simp only [dynField_error_iff, Nat.zero_add]

end Sys2Proof.Machine
end

section
/-! PROOFS. The CRC framer (41_crc_framer.md rules R153 to R155): what a framed payload and a deframed buffer hold at each
place, what the framer's errors write, and the outcomes of CRCCALC, FRAME and DEFRAME. -/

namespace Sys2Proof.Machine

/-! ## ERR_INFO and the end of a framer command -/

/-- The field on the left weighs its number times the width of the field on the right (R27). -/
theorem toNat_append_eq_add {m n : Nat} (x : BitVec m) (y : BitVec n) :
    (x ++ y).toNat = y.toNat + x.toNat * 2 ^ n := by
  rw [BitVec.toNat_append, ← Nat.shiftLeft_add_eq_or_of_lt y.isLt, Nat.shiftLeft_eq, Nat.add_comm]

/-- A word is fixed by its number, however the fields that make it up are laid out. -/
theorem word_eq_ofNat (w : Word) (n : Nat) (h : w.toNat = n) : w = BitVec.ofNat 32 n := by
  rw [← h, BitVec.ofNat_toNat, BitVec.setWidth_eq]

theorem frameLen_info (len : Nat) (h : Byte) :
    (BlockError.frameLen len h.toNat).info = BitVec.ofNat 32 (len % 65536 + h.toNat * 65536) := by
  refine word_eq_ofNat _ _ ?_
  have bound := h.isLt
  simp only [BlockError.info, toNat_append_eq_add, BitVec.toNat_ofNat]
  omega

theorem deframeLen_info (len : Nat) : (BlockError.deframeLen len).info = BitVec.ofNat 32 (len % 65536) := by
  refine word_eq_ofNat _ _ ?_
  simp only [BlockError.info, toNat_append_eq_add, BitVec.toNat_ofNat]
  omega

theorem checksum_info (received expected : Byte) (pos : Nat) :
    (BlockError.checksum received expected pos).info =
      BitVec.ofNat 32 (received.toNat + expected.toNat * 256 + pos % 65536 * 65536) := by
  refine word_eq_ofNat _ _ ?_
  simp only [BlockError.info, toNat_append_eq_add, BitVec.toNat_ofNat]
  omega

/-- R255: what FRAME_LEN writes. -/
theorem raise_frameLen (s : State) (len : Nat) (h : Byte) :
    s.raise (.frameLen len h.toNat) =
      { s with
        status := 0x00000012, errInfo := BitVec.ofNat 32 (len % 65536 + h.toNat * 65536)
        dout := [], vout := none, rdata := 0, errLog := .frameLen len h.toNat :: s.errLog } := by
  have status : statusWord 0x12 {} = 0x00000012 := by decide
  simp only [State.raise, BlockError.code, BlockError.flags, status, frameLen_info]

/-- R255: what DEFRAME_LEN writes. -/
theorem raise_deframeLen (s : State) (len : Nat) :
    s.raise (.deframeLen len) =
      { s with
        status := 0x00000013, errInfo := BitVec.ofNat 32 (len % 65536)
        dout := [], vout := none, rdata := 0, errLog := .deframeLen len :: s.errLog } := by
  have status : statusWord 0x13 {} = 0x00000013 := by decide
  simp only [State.raise, BlockError.code, BlockError.flags, status, deframeLen_info]

/-- R242, R255: what CHECKSUM writes; the original buffer goes to DOUT. -/
theorem raise_checksum (s : State) (received expected : Byte) (pos : Nat) :
    s.raise (.checksum received expected pos) =
      { s with
        status := 0x00000001
        errInfo := BitVec.ofNat 32 (received.toNat + expected.toNat * 256 + pos % 65536 * 65536)
        dout := s.ports.din, vout := none, rdata := 0, errLog := .checksum received expected pos :: s.errLog } := by
  have status : statusWord 0x01 {} = 0x00000001 := by decide
  simp only [State.raise, BlockError.code, BlockError.flags, status, checksum_info]

/-- A command that succeeds with a number on RDATA and no flag leaves STATUS and ERR_INFO 0 (R255). -/
theorem succeed_rdata_only (s : State) (r : Word) :
    s.succeed { rdata := r } = { s with rdata := r, dout := [], vout := none, status := 0, errInfo := 0 } := by
  have status : statusWord 0 {} = 0 := by decide
  rw [State.succeed, status]

/-- A command that succeeds with bytes on DOUT and no flag but NODATA leaves that flag in STATUS (R26, R255). -/
theorem succeed_dout_nodata (s : State) (out : List Byte) (nodata : Bool) :
    s.succeed { dout := out, flags := { nodata := nodata } } =
      { s with dout := out, vout := none, rdata := 0, status := if nodata then 0x00000200 else 0, errInfo := 0 } := by
  have status : statusWord 0 { nodata := nodata } = if nodata then 0x00000200 else 0 := by
    cases nodata <;> decide
  rw [State.succeed, status]

theorem succeed_dout_only (s : State) (out : List Byte) :
    s.succeed { dout := out } = { s with dout := out, vout := none, rdata := 0, status := 0, errInfo := 0 } :=
  succeed_dout_nodata s out false

theorem checksumFn_of_crcOff (s : State) (off : s.ctrl.getLsbD 0 = false) : s.checksumFn = none := by
  rw [checksumFn_eq, off, if_neg Bool.false_ne_true]

theorem checksumFn_of_crcOn (s : State) (on : s.ctrl.getLsbD 0 = true) : s.checksumFn = some s.crcFn := by
  rw [checksumFn_eq, if_pos on]

/-! ## CRCCALC -/

/-- R153: any length but two is refused as a frame without a header. -/
theorem crccalcBody_of_length_ne (crc : Byte → Byte → Byte) (din : List Byte) (h : din.length ≠ 2) :
    crccalcBody crc din = .error (.frameLen din.length 0) := by
  match din, h with
  | [], _ => rfl
  | [_], _ => rfl
  | [_, _], h => exact absurd rfl h
  | _ :: _ :: _ :: _, _ => rfl

/-- Settles O35: the body matches on a list of exactly two bytes. -/
theorem crccalcGivesChecksum : Obligations.CrccalcGivesChecksum := by
  intro s
  have run : exec .crccalc s = .next (s.complete (crccalcBody s.crcFn s.ports.din)) :=
    exec_eq_complete .crccalc s rfl
  refine ⟨fun a b hdin => ?_, fun hlen => ⟨.frameLen s.ports.din.length 0 :: s.errLog, ?_⟩⟩
  · rw [run, hdin, crccalcBody, complete_ok, succeed_rdata_only]
    rfl
  · have raised := raise_frameLen s s.ports.din.length 0#8
    rw [BitVec.toNat_zero, Nat.zero_mul, Nat.add_zero] at raised
    rw [run, crccalcBody_of_length_ne _ _ hlen, complete_error, raised]

/-! ## FRAME -/

/-- Pair `k` of the payload begins group `k` of the frame, and its checksum byte ends it (R154). -/
theorem frameGroups_getElem? (crc : Byte → Byte → Byte) (p : List Byte) (k : Nat) (a b : Byte)
    (ha : p[2 * k]? = some a) (hb : p[2 * k + 1]? = some b) :
    (frameGroups crc p)[3 * k]? = some a ∧ (frameGroups crc p)[3 * k + 1]? = some b ∧
      (frameGroups crc p)[3 * k + 2]? = some (crc a b) := by
  induction k generalizing p with
  | zero =>
    match p, ha, hb with
    | _ :: _ :: _, rfl, rfl => exact ⟨rfl, rfl, rfl⟩
  | succ k ih =>
    match p, ha, hb with
    | _ :: _ :: rest, ha, hb => exact ih rest ha hb

theorem take_append_getElem?_add {α : Type} (xs ys : List α) (h i : Nat) (hle : h ≤ xs.length) :
    (xs.take h ++ ys)[h + i]? = ys[i]? := by
  rw [List.getElem?_append_right (by simp), List.length_take_of_le hle, Nat.add_sub_cancel_left]

theorem frameBody_of_refused (crc : Byte → Byte → Byte) (h : Byte) (din : List Byte)
    (bad : din.length < h.toNat ∨ (din.length - h.toNat) % 2 = 1) :
    frameBody (some crc) h din = .error (.frameLen din.length h.toNat) := by
  obtain ⟨hfn, -⟩ | ⟨-, -, -, hb⟩ | ⟨-, -, fits, even, -⟩ := frameBytes_cases (some crc) h.toNat din
  · cases hfn
  · rw [frameBody, hb]
  · omega

theorem frameBody_of_framed (crc : Byte → Byte → Byte) (h : Byte) (din : List Byte)
    (fits : h.toNat ≤ din.length) (even : (din.length - h.toNat) % 2 = 0) :
    frameBody (some crc) h din = .ok { dout := din.take h.toNat ++ frameGroups crc (din.drop h.toNat) } := by
  obtain ⟨hfn, -⟩ | ⟨-, -, bad, -⟩ | ⟨_, hfn, -, -, hb⟩ := frameBytes_cases (some crc) h.toNat din
  · cases hfn
  · omega
  · cases hfn
    rw [frameBody, hb]

/-- Settles O37: the three ways framing can end, and the place of each pair in the groups. -/
theorem frameInsertsChecksums : Obligations.FrameInsertsChecksums := by
  intro h s
  have run : exec (.frame h) s = .next (s.complete (frameBody s.checksumFn h s.ports.din)) :=
    exec_eq_complete (.frame h) s rfl
  refine ⟨fun off => ?_, fun on bad => ⟨.frameLen s.ports.din.length h.toNat :: s.errLog, ?_⟩,
    fun on fits even =>
      ⟨s.ports.din.take h.toNat ++ frameGroups s.crcFn (s.ports.din.drop h.toNat), ?_, ?_, ?_, fun k hk => ?_⟩⟩
  · rw [run, checksumFn_of_crcOff s off]
    exact congrArg Host.Outcome.next (succeed_dout_only s s.ports.din)
  · rw [run, checksumFn_of_crcOn s on, frameBody_of_refused _ h _ bad, complete_error, raise_frameLen]
  · rw [run, checksumFn_of_crcOn s on, frameBody_of_framed _ h _ fits even, complete_ok, succeed_dout_only]
  · rw [List.length_append, List.length_take_of_le fits, frameGroups_length, List.length_drop]
  · exact List.take_left' (List.length_take_of_le fits)
  · have ha := List.getElem?_eq_getElem (l := s.ports.din) (i := h.toNat + 2 * k) (by omega)
    have hb := List.getElem?_eq_getElem (l := s.ports.din) (i := h.toNat + 2 * k + 1) (by omega)
    obtain ⟨first, second, check⟩ := frameGroups_getElem? s.crcFn (s.ports.din.drop h.toNat) k _ _
      (List.getElem?_drop.trans ha) (List.getElem?_drop.trans hb)
    refine ⟨_, _, ha, hb, ?_, ?_, ?_⟩
    · rw [take_append_getElem?_add _ _ _ _ fits, first]
    · rw [Nat.add_assoc, take_append_getElem?_add _ _ _ _ fits, second]
    · rw [Nat.add_assoc, take_append_getElem?_add _ _ _ _ fits, check]

/-! ## DEFRAME -/

/-- The data bytes of whole groups, their checksum bytes dropped unchecked. -/
def stripChecksums : List Byte → List Byte
  | a :: b :: _ :: rest => a :: b :: stripChecksums rest
  | _ => []

/-- Fewer than three bytes hold no whole group. -/
theorem length_lt_three_of_no_group (bs : List Byte)
    (short : ∀ (a b c : Byte) (rest : List Byte), bs = a :: b :: c :: rest → False) : bs.length < 3 := by
  match bs, short with
  | [], _ => decide
  | [_], _ => simp
  | [_, _], _ => simp
  | a :: b :: c :: rest, short => exact absurd rfl (short a b c rest)

theorem stripChecksums_length (bs : List Byte) : (stripChecksums bs).length = 2 * (bs.length / 3) := by
  induction bs using stripChecksums.induct with
  | case1 a b c rest ih =>
    simp only [stripChecksums, List.length_cons, ih]
    omega
  | case2 bs short =>
    have few := length_lt_three_of_no_group bs short
    rw [stripChecksums, List.length_nil, Nat.div_eq_of_lt few]
    exact short

theorem stripChecksums_getElem? (bs : List Byte) (k : Nat) (hk : k < bs.length / 3) :
    (stripChecksums bs)[2 * k]? = bs[3 * k]? ∧ (stripChecksums bs)[2 * k + 1]? = bs[3 * k + 1]? := by
  induction bs using stripChecksums.induct generalizing k with
  | case1 a b c rest ih =>
    cases k with
    | zero => exact ⟨rfl, rfl⟩
    | succ k =>
      simp only [List.length_cons] at hk
      exact ih k (by omega)
  | case2 bs short =>
    have few := length_lt_three_of_no_group bs short
    omega

/-- Nothing remains of whole groups exactly when there is none (R155). -/
theorem stripChecksums_isEmpty_iff (bs : List Byte) (whole : bs.length % 3 = 0) :
    (stripChecksums bs).isEmpty = true ↔ bs = [] := by
  rw [List.isEmpty_iff_length_eq_zero, stripChecksums_length, ← List.length_eq_zero_iff]
  omega

/-- Groups after the first are those of the rest of the buffer. -/
theorem groupGood_cons (crc : Byte → Byte → Byte) (a b c : Byte) (rest : List Byte) (k : Nat) :
    groupGood crc (a :: b :: c :: rest) (k + 1) ↔ groupGood crc rest k := Iff.rfl

theorem deframeGroups_cons_good (crc : Byte → Byte → Byte) (pos : Nat) (a b c : Byte) (rest : List Byte)
    (good : groupGood crc (a :: b :: c :: rest) 0) :
    deframeGroups crc pos (a :: b :: c :: rest) =
      (deframeGroups crc (pos + 3) rest).map fun out => a :: b :: out := by
  have same : c = crc a b := good
  rw [deframeGroups, if_neg (not_not.mpr same)]
  cases deframeGroups crc (pos + 3) rest <;> rfl

/-- The walk over the groups stops at the first bad one (R155). -/
theorem deframeGroups_of_firstBad (crc : Byte → Byte → Byte) (pos : Nat) (bs : List Byte) (k : Nat) (a b c : Byte)
    (before : ∀ j, j < k → groupGood crc bs j)
    (ha : bs[3 * k]? = some a) (hb : bs[3 * k + 1]? = some b) (hc : bs[3 * k + 2]? = some c) (bad : c ≠ crc a b) :
    deframeGroups crc pos bs = .error (.checksum c (crc a b) (pos + (3 * k + 2))) := by
  induction k generalizing pos bs with
  | zero =>
    match bs, ha, hb, hc with
    | _ :: _ :: _ :: _, rfl, rfl, rfl => rw [deframeGroups, if_pos bad]
  | succ k ih =>
    match bs, before, ha, hb, hc with
    | _ :: _ :: _ :: rest, before, ha, hb, hc =>
      have stops := ih (pos + 3) rest (fun j hj => (groupGood_cons ..).mp (before (j + 1) (Nat.succ_lt_succ hj))) ha hb hc
      have place : pos + 3 + (3 * k + 2) = pos + (3 * (k + 1) + 2) := by omega
      rw [deframeGroups_cons_good _ _ _ _ _ _ (before 0 k.succ_pos), stops, Except.map, place]

/-- Good groups are stripped of their checksum bytes (R155). -/
theorem deframeGroups_of_good (crc : Byte → Byte → Byte) (pos : Nat) (bs : List Byte)
    (good : ∀ k, k < bs.length / 3 → groupGood crc bs k) :
    deframeGroups crc pos bs = .ok (stripChecksums bs) := by
  induction bs using stripChecksums.induct generalizing pos with
  | case1 a b c rest ih =>
    have count : (a :: b :: c :: rest).length / 3 = rest.length / 3 + 1 := by
      simp only [List.length_cons]
      omega
    rw [count] at good
    have others := ih (pos + 3) fun k hk => (groupGood_cons ..).mp (good (k + 1) (Nat.succ_lt_succ hk))
    rw [deframeGroups_cons_good _ _ _ _ _ _ (good 0 (Nat.succ_pos _)), others, Except.map, stripChecksums]
  | case2 bs short => rw [deframeGroups, stripChecksums] <;> exact short

theorem deframeBody_of_length (crc : Byte → Byte → Byte) (din : List Byte) (ragged : din.length % 3 ≠ 0) :
    deframeBody (some crc) din = .error (.deframeLen din.length) := by
  rw [deframeBody, deframeBytes, if_pos ragged]

theorem deframeBody_of_groups (crc : Byte → Byte → Byte) (din : List Byte) (whole : din.length % 3 = 0) :
    deframeBody (some crc) din =
      (deframeGroups crc 0 din).map fun out => { dout := out, flags := { nodata := out.isEmpty } } := by
  rw [deframeBody, deframeBytes, if_neg (not_not.mpr whole)]
  cases deframeGroups crc 0 din <;> rfl

/-- Settles O38: the walk over the groups ends at the first bad one, or strips them all. -/
theorem deframeStripsChecksums : Obligations.DeframeStripsChecksums := by
  intro s
  have run : exec .deframe s = .next (s.complete (deframeBody s.checksumFn s.ports.din)) :=
    exec_eq_complete .deframe s rfl
  refine ⟨fun off => ?_, fun on ragged => ⟨.deframeLen s.ports.din.length :: s.errLog, ?_⟩,
    fun on whole k a b c before ha hb hc bad =>
      ⟨.checksum c (s.crcFn a b) (3 * k + 2) :: s.errLog, ?_⟩,
    fun on whole good =>
      ⟨stripChecksums s.ports.din, ?_, stripChecksums_length _, stripChecksums_getElem? _⟩⟩
  · rw [run, checksumFn_of_crcOff s off]
    exact congrArg Host.Outcome.next (succeed_dout_only s s.ports.din)
  · rw [run, checksumFn_of_crcOn s on, deframeBody_of_length _ _ ragged, complete_error, raise_deframeLen]
  · have stops := deframeGroups_of_firstBad s.crcFn 0 s.ports.din k a b c before ha hb hc bad
    rw [Nat.zero_add] at stops
    rw [run, checksumFn_of_crcOn s on, deframeBody_of_groups _ _ whole, stops, Except.map, complete_error,
      raise_checksum]
  · rw [run, checksumFn_of_crcOn s on, deframeBody_of_groups _ _ whole, deframeGroups_of_good _ _ _ good, Except.map,
      complete_ok, succeed_dout_nodata]
    simp only [stripChecksums_isEmpty_iff _ whole]

end Sys2Proof.Machine
end

section
/-! PROOFS. RXLEN (42_transfer_paths.md rule R180): the bound on `rx_length` that keeps RDATA from wrapping, what RXLEN_ODD
writes, and the outcomes of the command. -/

namespace Sys2Proof.Machine

/-! ## The size of a response -/

/-- A field comes from its two bytes, so there are no more fields than byte pairs (R77). -/
theorem parseFields_length_le (use : Use) (i strings : Nat) (bytes : List Byte) (fs : List Field)
    (h : parseFields use i strings bytes = .ok fs) : 2 * fs.length ≤ bytes.length := by
  induction i, strings, bytes using parseFields.induct (use := use) generalizing fs with
  | case1 i strings t c rest e bad => simp [parseFields, bad] at h
  | case2 i strings t c rest f good e bad ih => simp [parseFields, good, bad] at h
  | case3 i strings t c rest f good fs' others ih =>
    obtain rfl : f :: fs' = fs := by simpa [parseFields, good, others] using h
    have rest_le := ih fs' others
    simp only [List.length_cons]
    omega
  | case4 bytes i strings short =>
    have none : parseFields use i strings bytes = .ok [] := by
      rw [parseFields]
      exact short
    obtain rfl := Except.ok.inj (none.symm.trans h)
    exact Nat.zero_le _

/-- NF is one byte, so a descriptor that validates has at most 255 fields (R75). -/
theorem validate_fields_length_le (use : Use) (bytes : List Byte) (d : Descr) (h : validate use bytes = .ok d) :
    d.fields.length ≤ 255 := by
  match bytes with
  | [] => cases h
  | [_] => cases h
  | hdr :: nf :: rest =>
    simp only [validate] at h
    split_ifs at h with length
    cases hp : parseFields use 0 0 rest with
    | error e => simp [hp] at h
    | ok fs =>
      obtain rfl : ⟨orderOf hdr, fs⟩ = d := by simpa [hp] using h
      have pairs := parseFields_length_le use 0 0 rest fs hp
      have count := nf.isLt
      change fs.length ≤ 255
      omega

theorem etypeSize_le (e : EType) : etypeSize e ≤ 8 := by cases e <;> decide

/-- R83: the most one field adds is 255 elements of 8 bytes. -/
theorem fieldMaxBytes_le (f : Field) : fieldMaxBytes f ≤ 255 * 8 := by
  have size := etypeSize_le f.etype
  have count : f.count.toNat ≤ 255 := Nat.le_of_lt_succ f.count.isLt
  unfold fieldMaxBytes
  cases f.shape with
  | scalar => exact size.trans (by decide)
  | array => exact Nat.mul_le_mul count size
  | string => exact count.trans (by decide)

theorem rxLength_le (d : Descr) : rxLength d ≤ d.fields.length * (255 * 8) := by
  have bound := List.sum_le_card_nsmul (d.fields.map fieldMaxBytes) (255 * 8)
    (List.forall_mem_map.mpr fun f _ => fieldMaxBytes_le f)
  rwa [List.length_map, smul_eq_mul] at bound

/-- The response to a legal descriptor is short enough for RDATA, framed or not. -/
theorem rxLength_le_of_valid (use : Use) (bytes : List Byte) (d : Descr) (h : validate use bytes = .ok d) :
    rxLength d ≤ 255 * (255 * 8) :=
  (rxLength_le d).trans (Nat.mul_le_mul_right _ (validate_fields_length_le use bytes d h))

/-! ## RXLEN_ODD -/

theorem rxlenOdd_info (len : Nat) : (BlockError.rxlenOdd len).info = BitVec.ofNat 32 (len % 65536) :=
  deframeLen_info len

/-- R255: what RXLEN_ODD writes. -/
theorem raise_rxlenOdd (s : State) (len : Nat) :
    s.raise (.rxlenOdd len) =
      { s with
        status := 0x00000017, errInfo := BitVec.ofNat 32 (len % 65536)
        dout := [], vout := none, rdata := 0, errLog := .rxlenOdd len :: s.errLog } := by
  have status : statusWord 0x17 {} = 0x00000017 := by decide
  simp only [State.raise, BlockError.code, BlockError.flags, status, rxlenOdd_info]

/-! ## RXLEN -/

theorem rxlenBody_of_absent (crcEn : Bool) (p : Ports) (absent : p.desc = []) : rxlenBody crcEn p = .ok {} := by
  rw [rxlenBody, if_pos (List.length_eq_zero_iff.mpr absent)]

/-- R180: with a legal descriptor RXLEN answers from `rx_length` and CRC_EN alone. -/
theorem rxlenBody_of_valid (crcEn : Bool) (p : Ports) (d : Descr) (hdesc : p.desc ≠ [])
    (hd : validate .rx p.desc = .ok d) :
    rxlenBody crcEn p =
      if crcEn = false then .ok { rdata := BitVec.ofNat 32 (rxLength d) }
      else if rxLength d % 2 ≠ 0 then .error (.rxlenOdd (rxLength d))
      else .ok { rdata := BitVec.ofNat 32 (rxLength d * 3 / 2) } := by
  have present : ¬ p.desc.length = 0 := mt List.length_eq_zero_iff.mp hdesc
  rw [rxlenBody, if_neg present, hd]

/-- Settles O42: an absent descriptor, CRC_EN = 0, and with CRC_EN = 1 an even and an odd `rx_length`. -/
theorem rxlenScalesLength : Obligations.RxlenScalesLength := by
  have run (s : State) : exec .rxlen s = .next (s.complete (rxlenBody (s.ctrl.getLsbD 0) s.ports)) :=
    exec_eq_complete .rxlen s rfl
  refine ⟨fun s absent => ?_, fun s d hdesc hd => ?_⟩
  · rw [run, rxlenBody_of_absent _ _ absent, complete_ok]
    exact congrArg Host.Outcome.next (succeed_rdata_only s 0)
  · have short := rxLength_le_of_valid .rx s.ports.desc d hd
    refine ⟨fun off => ⟨BitVec.ofNat 32 (rxLength d), ?_, ?_⟩,
      fun on even => ⟨BitVec.ofNat 32 (rxLength d * 3 / 2), ?_, ?_⟩,
      fun on odd => ⟨.rxlenOdd (rxLength d) :: s.errLog, ?_⟩⟩
    · rw [BitVec.toNat_ofNat]
      omega
    · rw [run, rxlenBody_of_valid _ _ d hdesc hd, if_pos off, complete_ok, succeed_rdata_only]
    · rw [BitVec.toNat_ofNat]
      omega
    · rw [run, rxlenBody_of_valid _ _ d hdesc hd, if_neg (by simp [on]), if_neg (by omega), complete_ok,
        succeed_rdata_only]
    · rw [run, rxlenBody_of_valid _ _ d hdesc hd, if_neg (by simp [on]), if_pos (by omega), complete_error,
        raise_rxlenOdd]

end Sys2Proof.Machine
end

section
/-! PROOFS. SHDLC_CHECK (43_shdlc.md rule R201): which check of the tuple fails first, what the errors of the check write,
and the outcomes of the command. -/

namespace Sys2Proof.Machine

/-! ## The status byte -/

/-- R201: the device's error code is the low 7 bits of the status byte. -/
theorem deviceCode_ne_zero_iff (es : Byte) : es.extractLsb' 0 7 ≠ 0 ↔ es.toNat % 128 ≠ 0 := by
  simp [BitVec.toNat_eq, BitVec.extractLsb'_toNat]

/-- R26: STATUS where the top bit of the status byte is the only flag. -/
theorem statusWord_devstate (err es : Byte) :
    statusWord err { devstate := es.getLsbD 7 } =
      if 128 ≤ es.toNat then statusWord err { devstate := true } else statusWord err {} := by
  by_cases top : 128 ≤ es.toNat
  · rw [if_pos top, (typeBits_reserved_iff es).mpr top]
  · rw [if_neg top, Bool.eq_false_iff.mpr (mt (typeBits_reserved_iff es).mp top)]

/-! ## ERR_INFO and the end of the command -/

theorem mismatchAddr_info (received expected : Byte) :
    (BlockError.mismatchAddr received expected).info = BitVec.ofNat 32 (received.toNat + expected.toNat * 256) := by
  refine word_eq_ofNat _ _ ?_
  simp only [BlockError.info, toNat_append_eq_add, BitVec.toNat_ofNat]
  omega

theorem mismatchCmd_info (received expected : Byte) :
    (BlockError.mismatchCmd received expected).info = BitVec.ofNat 32 (received.toNat + expected.toNat * 256) :=
  mismatchAddr_info received expected

theorem device_info (es : Byte) : (BlockError.device es).info = BitVec.ofNat 32 es.toNat := by
  refine word_eq_ofNat _ _ ?_
  simp only [BlockError.info, toNat_append_eq_add, BitVec.toNat_ofNat]
  omega

/-- R255: what MISMATCH_ADDR writes. -/
theorem raise_mismatchAddr (s : State) (received expected : Byte) :
    s.raise (.mismatchAddr received expected) =
      { s with
        status := 0x00000002, errInfo := BitVec.ofNat 32 (received.toNat + expected.toNat * 256)
        dout := [], vout := none, rdata := 0, errLog := .mismatchAddr received expected :: s.errLog } := by
  have status : statusWord 0x02 {} = 0x00000002 := by decide
  simp only [State.raise, BlockError.code, BlockError.flags, status, mismatchAddr_info]

/-- R255: what MISMATCH_CMD writes. -/
theorem raise_mismatchCmd (s : State) (received expected : Byte) :
    s.raise (.mismatchCmd received expected) =
      { s with
        status := 0x00000003, errInfo := BitVec.ofNat 32 (received.toNat + expected.toNat * 256)
        dout := [], vout := none, rdata := 0, errLog := .mismatchCmd received expected :: s.errLog } := by
  have status : statusWord 0x03 {} = 0x00000003 := by decide
  simp only [State.raise, BlockError.code, BlockError.flags, status, mismatchCmd_info]

/-- R255: what DEVICE writes; it is the one error that leaves a flag. -/
theorem raise_device (s : State) (es : Byte) :
    s.raise (.device es) =
      { s with
        status := if 128 ≤ es.toNat then 0x00000404 else 0x00000004
        errInfo := BitVec.ofNat 32 es.toNat
        dout := [], vout := none, rdata := 0, errLog := .device es :: s.errLog } := by
  have flagged : statusWord 0x04 { devstate := true } = 0x00000404 := by decide
  have plain : statusWord 0x04 {} = 0x00000004 := by decide
  simp only [State.raise, BlockError.code, BlockError.flags, statusWord_devstate, flagged, plain, device_info]

/-- A command that succeeds with bytes on DOUT and no flag but DEVSTATE leaves that flag in STATUS (R26, R255). -/
theorem succeed_dout_devstate (s : State) (out : List Byte) (es : Byte) :
    s.succeed { dout := out, flags := { devstate := es.getLsbD 7 } } =
      { s with
        dout := out, vout := none, rdata := 0
        status := if 128 ≤ es.toNat then 0x00000400 else 0, errInfo := 0 } := by
  have flagged : statusWord 0 { devstate := true } = 0x00000400 := by decide
  have plain : statusWord 0 {} = 0 := by decide
  rw [State.succeed, statusWord_devstate, flagged, plain]

/-! ## The checks, in the order of R201 -/

theorem shdlcError_of_addr (p : Ports) (addr : p.ea ≠ p.sa) : shdlcError p = some (.mismatchAddr p.ea p.sa) := by
  rw [shdlcError, if_pos addr]

theorem shdlcError_of_cmd (p : Ports) (addr : p.ea = p.sa) (cmd : p.ec ≠ p.sc) :
    shdlcError p = some (.mismatchCmd p.ec p.sc) := by
  rw [shdlcError, if_neg (not_not.mpr addr), if_pos cmd]

/-- A response to the command that was sent is judged by its status byte alone. -/
theorem shdlcError_of_match (p : Ports) (addr : p.ea = p.sa) (cmd : p.ec = p.sc) :
    shdlcError p = if p.es.toNat % 128 ≠ 0 then some (.device p.es) else none := by
  rw [shdlcError, if_neg (not_not.mpr addr), if_neg (not_not.mpr cmd)]
  simp only [deviceCode_ne_zero_iff]

/-! ## SHDLC_CHECK -/

theorem exec_shdlcCheck_of_error (s : State) (e : BlockError) (h : shdlcError s.ports = some e) :
    exec .shdlcCheck s = .next (s.raise e) := by
  rw [exec_eq_complete .shdlcCheck s rfl, bodyOf, shdlcCheckBody, h, complete_error]

theorem exec_shdlcCheck_of_none (s : State) (h : shdlcError s.ports = none) :
    exec .shdlcCheck s =
      .next (s.succeed { dout := s.ports.din, flags := { devstate := s.ports.es.getLsbD 7 } }) := by
  rw [exec_eq_complete .shdlcCheck s rfl, bodyOf, shdlcCheckBody, h, complete_ok]

/-- Settles O47: one clause for each check that can fail first, and one where none does. -/
theorem shdlcCheckOrder : Obligations.ShdlcCheckOrder := by
  intro s
  refine ⟨fun addr => ⟨.mismatchAddr s.ports.ea s.ports.sa :: s.errLog, ?_⟩,
    fun addr cmd => ⟨.mismatchCmd s.ports.ec s.ports.sc :: s.errLog, ?_⟩,
    fun addr cmd code => ⟨.device s.ports.es :: s.errLog, ?_⟩, fun addr cmd code => ?_⟩
  · rw [exec_shdlcCheck_of_error s _ (shdlcError_of_addr _ addr), raise_mismatchAddr]
  · rw [exec_shdlcCheck_of_error s _ (shdlcError_of_cmd _ addr cmd), raise_mismatchCmd]
  · have device := (shdlcError_of_match s.ports addr cmd).trans (if_pos code)
    rw [exec_shdlcCheck_of_error s _ device, raise_device]
  · have passes := (shdlcError_of_match s.ports addr cmd).trans (if_neg (not_not.mpr code))
    rw [exec_shdlcCheck_of_none s passes, succeed_dout_devstate]

end Sys2Proof.Machine
end

section
/-! PROOFS. Register access (44_register_access.md rule R220): which addresses are unmapped, what ILLEGAL_REG writes, and
the two outcomes of RDREG. -/

namespace Sys2Proof.Machine

/-- R60: the addresses past ERR_INFO hold no register. -/
theorem regAt_of_unmapped (addr : Byte) (h : 3 < addr.toNat) : regAt addr = none := by
  obtain ⟨rfl, -⟩ | ⟨rfl, -⟩ | ⟨rfl, -⟩ | ⟨rfl, -⟩ | ⟨-, unmapped⟩ := regAt_cases addr
  case inr.inr.inr.inr => exact unmapped
  all_goals exact absurd h (by decide)

/-! ## ERR_INFO and the end of a register access that fails -/

/-- R27: bit 8 tells a write from a read. -/
theorem illegalReg_info (addr : Byte) (write : Bool) :
    (BlockError.illegalReg addr write).info = BitVec.ofNat 32 (write.toNat * 256 + addr.toNat) := by
  refine word_eq_ofNat _ _ ?_
  simp only [BlockError.info, toNat_append_eq_add, BitVec.toNat_ofNat, BitVec.toNat_ofBool]
  omega

/-- R255: what ILLEGAL_REG writes. -/
theorem raise_illegalReg (s : State) (addr : Byte) (write : Bool) :
    s.raise (.illegalReg addr write) =
      { s with
        status := 0x00000011, errInfo := BitVec.ofNat 32 (write.toNat * 256 + addr.toNat)
        dout := [], vout := none, rdata := 0, errLog := .illegalReg addr write :: s.errLog } := by
  have status : statusWord 0x11 {} = 0x00000011 := by decide
  simp only [State.raise, BlockError.code, BlockError.flags, status, illegalReg_info]

/-! ## RDREG -/

theorem exec_rdreg (addr : Byte) (s : State) : exec (.rdreg addr) s = execRdreg addr s := rfl

theorem exec_rdreg_of_mapped (addr : Byte) (r : Reg) (s : State) (h : regAt addr = some r) :
    exec (.rdreg addr) s = .next { s with rdata := s.readReg r, dout := [], vout := none } := by
  simp only [exec_rdreg, execRdreg, h, State.respond]

theorem exec_rdreg_of_unmapped (addr : Byte) (s : State) (h : regAt addr = none) :
    exec (.rdreg addr) s = .next (s.raise (.illegalReg addr false)) := by
  simp only [exec_rdreg, execRdreg, h]

/-- Settles O50: one clause for each register, where only the result ports change, and one for the unmapped addresses. -/
theorem rdregReadsRegister : Obligations.RdregReadsRegister := by
  intro addr s
  refine ⟨?ctrl, ?crcCfg, ?status, ?errInfo, fun h => ⟨.illegalReg addr false :: s.errLog, ?unmapped⟩⟩
  case ctrl => rintro rfl; exact exec_rdreg_of_mapped 0 .ctrl s rfl
  case crcCfg => rintro rfl; exact exec_rdreg_of_mapped 1 .crcCfg s rfl
  case status => rintro rfl; exact exec_rdreg_of_mapped 2 .status s rfl
  case errInfo => rintro rfl; exact exec_rdreg_of_mapped 3 .errInfo s rfl
  case unmapped =>
    rw [exec_rdreg_of_unmapped addr s (regAt_of_unmapped addr h), raise_illegalReg, Bool.toNat_false, Nat.zero_mul,
      Nat.zero_add]

end Sys2Proof.Machine
end

section
/-! PROOFS. USAGE (60_exceptions.md rule R246): what the error writes, and that a descriptor which fails validation stops
every command that reads it at its first check. -/

namespace Sys2Proof.Machine

/-! ## ERR_INFO and the end of the command -/

theorem usage_info_toNat (cause : UsageCause) (field : Byte) :
    (BlockError.usage cause field).info.toNat = cause.code.toNat + field.toNat * 256 :=
  congrArg Prod.snd (Option.some.inj (usageRead_usage (α := Unit) cause field))

/-- R27, R246: `SUBCODE | FIELD << 8`. -/
theorem usage_info (cause : UsageCause) (field : Byte) :
    (BlockError.usage cause field).info = cause.code.setWidth 32 ||| (field.setWidth 32 <<< 8) := by
  have field_lt := field.isLt
  have shifted : (field.setWidth 32 <<< 8).toNat = field.toNat <<< 8 := by
    rw [BitVec.toNat_shiftLeft, BitVec.toNat_setWidth_of_le (by decide)]
    exact Nat.mod_eq_of_lt (by rw [Nat.shiftLeft_eq]; omega)
  apply BitVec.eq_of_toNat_eq
  rw [usage_info_toNat, BitVec.toNat_or, shifted, BitVec.toNat_setWidth_of_le (by decide), Nat.or_comm,
    ← Nat.shiftLeft_add_eq_or_of_lt cause.code.isLt, Nat.shiftLeft_eq, Nat.add_comm]

/-- R255: what USAGE writes. -/
theorem raise_usage (s : State) (cause : UsageCause) (field : Byte) :
    s.raise (.usage cause field) =
      { s with
        status := 0x00000005, errInfo := cause.code.setWidth 32 ||| (field.setWidth 32 <<< 8)
        dout := [], vout := none, rdata := 0, errLog := .usage cause field :: s.errLog } := by
  have status : statusWord 0x05 {} = 0x00000005 := by decide
  simp only [State.raise, BlockError.code, BlockError.flags, status, usage_info]

/-! ## The first check of a command that reads DESC -/

theorem packRequest_of_malformed (p : Ports) (e : BlockError) (bad : validate .tx p.desc = .error e) :
    packRequest p = .error e := by
  rw [packRequest, bad]

theorem optDescr_of_malformed (desc : List Byte) (e : BlockError) (present : desc ≠ [])
    (bad : validate .rx desc = .error e) : optDescr desc = .error e := by
  rw [optDescr, if_neg (mt List.length_eq_zero_iff.mp present), bad]

/-- A command that reads DESC as a request comes to the error of its validation. -/
theorem bodyOf_of_malformed_tx (i : Instr) (s : State) (e : BlockError) (reads : i ∈ [Instr.pack, .i2cTx])
    (bad : validate .tx s.ports.desc = .error e) : bodyOf s i = .error e := by
  have request := packRequest_of_malformed s.ports e bad
  simp only [List.mem_cons, List.not_mem_nil, or_false] at reads
  obtain rfl | rfl := reads
  case inl => rw [bodyOf, packBody, request]
  case inr => rw [bodyOf, i2cTxBody, request]

/-- A command that reads DESC as a response comes to the error of its validation, if DESC is present. -/
theorem bodyOf_of_malformed_rx (i : Instr) (s : State) (e : BlockError) (present : s.ports.desc ≠ [])
    (reads : i ∈ [Instr.rxlen, .unpack, .unpackDyn, .shdlcRx, .i2cRx])
    (bad : validate .rx s.ports.desc = .error e) : bodyOf s i = .error e := by
  have nonempty : ¬ s.ports.desc.length = 0 := mt List.length_eq_zero_iff.mp present
  have response := optDescr_of_malformed s.ports.desc e present bad
  simp only [List.mem_cons, List.not_mem_nil, or_false] at reads
  obtain rfl | rfl | rfl | rfl | rfl := reads
  · rw [bodyOf, rxlenBody, if_neg nonempty, bad]
  · rw [bodyOf, unpackBody, if_neg nonempty, bad]
  · rw [bodyOf, unpackDynBody, if_neg nonempty, bad]
  · rw [bodyOf, shdlcRxBody, response]
  · rw [bodyOf, i2cRxBody, response]

theorem isRegAccess_of_reads_desc (i : Instr)
    (reads : i ∈ [Instr.rxlen, .unpack, .unpackDyn, .shdlcRx, .i2cRx] ∨ i ∈ [Instr.pack, .i2cTx]) :
    isRegAccess i = false := by
  cases i with
  | rdreg addr => simp at reads
  | wrreg addr => simp at reads
  | _ => rfl

/-- Settles O18: the body of the command comes to the error of its validation, and that error is a USAGE. -/
theorem malformedDescriptorRaisesUsage : Obligations.MalformedDescriptorRaisesUsage := by
  intro i use s e reads bad
  obtain ⟨cause, field, rfl⟩ := validate_error use s.ports.desc e bad
  have stops : isRegAccess i = false ∧ bodyOf s i = .error (.usage cause field) := by
    obtain ⟨rfl, present, rx⟩ | ⟨rfl, tx⟩ := reads
    · exact ⟨isRegAccess_of_reads_desc i (.inl rx), bodyOf_of_malformed_rx i s _ present rx bad⟩
    · exact ⟨isRegAccess_of_reads_desc i (.inr tx), bodyOf_of_malformed_tx i s _ tx bad⟩
  obtain ⟨completes, body⟩ := stops
  refine ⟨cause, field, rfl, .usage cause field :: s.errLog, ?_⟩
  rw [exec_eq_complete i s completes, body, complete_error, raise_usage]

end Sys2Proof.Machine
end

section
/-! PROOFS. Reset (10_state.md rule R33, 70_reset_and_hazards.md rule R270): every register and result port. -/

namespace Sys2Proof.Machine

/-- Settles O7: the step that takes the reset ends in `State.applyReset`, which has the registers and the result ports of
`State.reset`. -/
theorem resetSetsEveryRegister : Obligations.ResetSetsEveryRegister := by
  refine ⟨fun s rest asserted => ?_, rfl, rfl, rfl, rfl, rfl, rfl, rfl⟩
  exact ⟨State.applyReset { s with hostQueue := rest }, step_reset s rest asserted, applyReset_ctrl _, applyReset_crcCfg _,
    applyReset_status _, applyReset_errInfo _, applyReset_dout _, applyReset_vout _, applyReset_rdata _⟩

end Sys2Proof.Machine
end

section
/-! PROOFS. The command word (30_encoding.md rules R70 to R74): a word is its three fields, the decoder inverts the encoder,
and the legal words are the encodings. -/

namespace Sys2Proof

open Machine Laws

/-! ## The fields of a word -/

theorem opField_toNat (w : Word) : (opField w).toNat = w.toNat % 256 := by
  simp [opField, BitVec.extractLsb'_toNat]

theorem immField_toNat (w : Word) : (immField w).toNat = w.toNat / 256 % 256 := by
  simp [immField, BitVec.extractLsb'_toNat, Nat.shiftRight_eq_div_pow]

theorem reservedField_toNat (w : Word) : (reservedField w).toNat = w.toNat / 65536 := by
  have bound := w.isLt
  simp only [reservedField, BitVec.extractLsb'_toNat, Nat.shiftRight_eq_div_pow]
  omega

theorem cmdWord_toNat (op imm : Byte) : (cmdWord op imm).toNat = op.toNat + imm.toNat * 256 := by
  simp only [cmdWord, toNat_append_eq_add, BitVec.toNat_ofNat]
  omega

/-- R70: a word is fixed by its three fields. -/
theorem eq_cmdWord_iff (w : Word) (op imm : Byte) :
    w = cmdWord op imm ↔ reservedField w = 0 ∧ opField w = op ∧ immField w = imm := by
  have word := w.isLt
  have low := op.isLt
  have high := imm.isLt
  simp only [BitVec.toNat_eq, cmdWord_toNat, reservedField_toNat, opField_toNat, immField_toNat, BitVec.ofNat_eq_ofNat,
    BitVec.toNat_ofNat]
  omega

@[simp] theorem reservedField_cmdWord (op imm : Byte) : reservedField (cmdWord op imm) = 0 := by
  obtain ⟨reserved, -, -⟩ := (eq_cmdWord_iff _ op imm).mp rfl
  exact reserved

@[simp] theorem opField_cmdWord (op imm : Byte) : opField (cmdWord op imm) = op := by
  obtain ⟨-, hop, -⟩ := (eq_cmdWord_iff _ op imm).mp rfl
  exact hop

@[simp] theorem immField_cmdWord (op imm : Byte) : immField (cmdWord op imm) = imm := by
  obtain ⟨-, -, himm⟩ := (eq_cmdWord_iff _ op imm).mp rfl
  exact himm

/-! ## The decoder -/

theorem encode_of_immOp (op imm : Byte) (i : Instr) (h : immOp op imm = some i) : encode i = cmdWord op imm := by
  unfold immOp at h
  split_ifs at h with frame rdreg wrreg <;> obtain rfl := Option.some.inj h
  · rw [frame, encode]
  · rw [rdreg, encode]
  · rw [wrreg, encode]

theorem encode_of_plainOp (op : Byte) (i : Instr) (h : plainOp op = some i) : encode i = cmdWord op 0 := by
  unfold plainOp at h
  split_ifs at h <;> obtain rfl := Option.some.inj h <;> subst op <;> rfl

theorem decodeWord_encode (i : Instr) : decodeWord (encode i) = .ok i := by
  cases i <;> simp only [encode, decodeWord, reservedField_cmdWord, opField_cmdWord, immField_cmdWord] <;> rfl

theorem eq_encode_of_decodeWord (w : Word) (i : Instr) (h : decodeWord w = .ok i) : w = encode i := by
  by_cases reserved : reservedField w = 0
  · have fields := (eq_cmdWord_iff w _ _).mpr ⟨reserved, rfl, rfl⟩
    rw [decodeWord, if_neg (not_not.mpr reserved)] at h
    cases himm : immOp (opField w) (immField w) with
    | some j =>
      obtain rfl : j = i := by simpa [himm] using h
      rw [encode_of_immOp _ _ _ himm, ← fields]
    | none =>
      cases hplain : plainOp (opField w) with
      | none => simp [himm, hplain] at h
      | some j =>
        simp only [himm, hplain] at h
        split_ifs at h with zero
        obtain rfl := Except.ok.inj h
        rw [encode_of_plainOp _ _ hplain, ← zero, ← fields]
  · rw [decodeWord, if_pos reserved] at h
    cases h

/-- Settles O1: the decoder answers a command of the word's own fields, and reads each encoding back. -/
theorem decodeIffEncode : Obligations.DecodeIffEncode := by
  refine fun w i => ⟨eq_encode_of_decodeWord w i, ?_⟩
  rintro rfl
  exact decodeWord_encode i

/-! ## The legal words -/

/-- R71: each row of the opcode map is a command's, and with every IMM8 if the row uses it. -/
theorem exists_encode_of_row (r : OpcodeRow) (h : r ∈ opcodeMap) (imm : Byte) (himm : imm = 0 ∨ r.usesImm8 = true) :
    ∃ i, encode i = cmdWord r.op imm := by
  have plain {op : Byte} (hz : imm = 0 ∨ false = true) : cmdWord op 0 = cmdWord op imm := by
    rw [hz.resolve_right Bool.false_ne_true]
  simp only [opcodeMap, List.mem_cons, List.not_mem_nil, or_false] at h
  obtain rfl | rfl | rfl | rfl | rfl | rfl | rfl | rfl | rfl | rfl | rfl | rfl | rfl := h
  exacts [⟨.crccalc, plain himm⟩, ⟨.frame imm, rfl⟩, ⟨.deframe, plain himm⟩, ⟨.rxlen, plain himm⟩, ⟨.pack, plain himm⟩,
    ⟨.unpack, plain himm⟩, ⟨.unpackDyn, plain himm⟩, ⟨.shdlcCheck, plain himm⟩, ⟨.shdlcRx, plain himm⟩,
    ⟨.i2cTx, plain himm⟩, ⟨.i2cRx, plain himm⟩, ⟨.rdreg imm, rfl⟩, ⟨.wrreg imm, rfl⟩]

theorem legalCmd_encode (i : Instr) : legalCmd (encode i) = true := by
  cases i with
  | crccalc => exact EncodeLegal.crccalc
  | frame h => exact EncodeLegal.frame h
  | deframe => exact EncodeLegal.deframe
  | rxlen => exact EncodeLegal.rxlen
  | pack => exact EncodeLegal.pack
  | unpack => exact EncodeLegal.unpack
  | unpackDyn => exact EncodeLegal.unpackDyn
  | shdlcCheck => exact EncodeLegal.shdlcCheck
  | shdlcRx => exact EncodeLegal.shdlcRx
  | i2cTx => exact EncodeLegal.i2cTx
  | i2cRx => exact EncodeLegal.i2cRx
  | rdreg addr => exact EncodeLegal.rdreg addr
  | wrreg addr => exact EncodeLegal.wrreg addr

/-- R73, R74: CMD[31:16] is 0, OP is in the opcode map, and IMM8 is 0 or its row uses it. -/
theorem legalCmd_iff_fields (w : Word) :
    legalCmd w = true ↔
      reservedField w = 0 ∧ (∃ r ∈ opcodeMap, r.op = opField w) ∧
        (immField w = 0 ∨ ∃ r ∈ opcodeMap, r.op = opField w ∧ r.usesImm8 = true) := by
  simp only [legalCmd, reservedClear, opAssigned, imm8Allowed, Bool.and_eq_true, Bool.or_eq_true, beq_iff_eq,
    List.any_eq_true, and_assoc, ← opField_toNat, ← immField_toNat, ← reservedField_toNat, ← BitVec.toNat_eq]
  simp [BitVec.toNat_eq]

theorem legalCmd_iff_encode (w : Word) : legalCmd w = true ↔ ∃ i, w = encode i := by
  constructor
  · rw [legalCmd_iff_fields]
    rintro ⟨reserved, ⟨r, hr, op⟩, imm⟩
    have fields := (eq_cmdWord_iff w _ _).mpr ⟨reserved, rfl, rfl⟩
    rw [fields]
    obtain zero | ⟨r', hr', op', uses⟩ := imm
    · obtain ⟨i, hi⟩ := exists_encode_of_row r hr 0 (.inl rfl)
      exact ⟨i, by rw [hi, op, zero]⟩
    · obtain ⟨i, hi⟩ := exists_encode_of_row r' hr' (immField w) (.inr uses)
      exact ⟨i, by rw [hi, op']⟩
  · rintro ⟨i, rfl⟩
    exact legalCmd_encode i

/-- Settles O2: a word that is rejected is no encoding, and the encodings are the legal words. -/
theorem decodeRejectsExactlyIllegalWords : Obligations.DecodeRejectsExactlyIllegalWords := by
  intro w
  rw [← Bool.not_eq_true, legalCmd_iff_encode]
  cases hd : decodeWord w with
  | error r =>
    refine iff_of_true ⟨r, rfl⟩ ?_
    rintro ⟨i, rfl⟩
    rw [decodeWord_encode] at hd
    cases hd
  | ok i => exact iff_of_false nofun (not_not.mpr ⟨i, eq_encode_of_decodeWord w i hd⟩)

/-- Settles O3: each word is the encoding of its command. -/
theorem specWordsDecode : Obligations.SpecWordsDecode :=
  ⟨decodeWord_encode (.frame 1), decodeWord_encode (.rdreg 1), decodeWord_encode (.wrreg 0), decodeWord_encode .pack,
    decodeWord_encode .shdlcRx, decodeWord_encode .i2cRx⟩

end Sys2Proof
end

section
/-! PROOFS. Commands and the step (10_state.md rules R20, R31, 60_exceptions.md rules R241, R255): how a command can end, said
once for every command, what every end leaves unchanged, and what a step makes of the host's next action. -/

namespace Sys2Proof.Machine

/-! ## How a command can end -/

/-- The error a command ends with: the one its body comes to, or ILLEGAL_REG of a register access. -/
def Raises (s : State) : Instr → BlockError → Prop
  | .rdreg addr, e => regAt addr = none ∧ e = .illegalReg addr false
  | .wrreg addr, e => regAt addr = none ∧ e = .illegalReg addr true
  | i, e => bodyOf s i = .error e

theorem raises_iff_body (s : State) (i : Instr) (e : BlockError) (h : isRegAccess i = false) :
    Raises s i e ↔ bodyOf s i = .error e := by
  cases i with
  | rdreg addr => cases h
  | wrreg addr => cases h
  | _ => rfl

/-- The states a command can end in: the results of its body, an error, or those of a register access. -/
inductive EndsIn (s : State) (i : Instr) : State → Prop
  | delivers (o : Output) (other : isRegAccess i = false) (body : bodyOf s i = .ok o) : EndsIn s i (s.succeed o)
  | fails (e : BlockError) (raises : Raises s i e) : EndsIn s i (s.raise e)
  | reads (addr : Byte) (r : Reg) (rdreg : i = .rdreg addr) (mapped : regAt addr = some r) :
    EndsIn s i (s.respond (s.readReg r))
  | writes (addr : Byte) (r : Reg) (wrreg : i = .wrreg addr) (mapped : regAt addr = some r) :
    EndsIn s i ((s.writeReg r s.ports.wdata).respond 0)

/-- Every command ends, in one of the four ways. -/
theorem exec_ends (i : Instr) (s : State) : ∃ t, exec i s = .next t ∧ EndsIn s i t := by
  obtain ⟨other, run⟩ | ⟨addr, rfl, run⟩ | ⟨addr, rfl, run⟩ := exec_cases i s
  · obtain ⟨e, body, complete⟩ | ⟨o, body, complete⟩ := complete_cases s (bodyOf s i)
    · exact ⟨_, run, complete ▸ .fails e ((raises_iff_body s i e other).mpr body)⟩
    · exact ⟨_, run, complete ▸ .delivers o other body⟩
  · obtain ⟨r, mapped, answer⟩ | ⟨unmapped, answer⟩ := execRdreg_cases addr s
    · exact ⟨_, run.trans answer, .reads addr r rfl mapped⟩
    · exact ⟨_, run.trans answer, .fails _ ⟨unmapped, rfl⟩⟩
  · obtain ⟨r, mapped, answer⟩ | ⟨unmapped, answer⟩ := execWrreg_cases addr s
    · exact ⟨_, run.trans answer, .writes addr r rfl mapped⟩
    · exact ⟨_, run.trans answer, .fails _ ⟨unmapped, rfl⟩⟩

theorem endsIn_of_exec (i : Instr) (s t : State) (h : exec i s = .next t) : EndsIn s i t := by
  obtain ⟨t', run, ends⟩ := exec_ends i s
  obtain rfl : t' = t := Host.Outcome.next.inj (run.symm.trans h)
  exact ends

theorem exec_ne_refused (i : Instr) (s : State) (r : Refusal) : exec i s ≠ .refused r := by
  obtain ⟨t, run, -⟩ := exec_ends i s
  rw [run]
  exact nofun

theorem exec_of_body_ok (i : Instr) (s : State) (o : Output) (other : isRegAccess i = false)
    (body : bodyOf s i = .ok o) : exec i s = .next (s.succeed o) := by
  rw [exec_eq_complete i s other, body, complete_ok]

theorem exec_wrreg (addr : Byte) (s : State) : exec (.wrreg addr) s = execWrreg addr s := rfl

theorem exec_wrreg_of_mapped (addr : Byte) (r : Reg) (s : State) (h : regAt addr = some r) :
    exec (.wrreg addr) s = .next ((s.writeReg r s.ports.wdata).respond 0) := by
  simp only [exec_wrreg, execWrreg, h]

theorem exec_wrreg_of_unmapped (addr : Byte) (s : State) (h : regAt addr = none) :
    exec (.wrreg addr) s = .next (s.raise (.illegalReg addr true)) := by
  simp only [exec_wrreg, execWrreg, h]

theorem exec_of_raises (i : Instr) (s : State) (e : BlockError) (raises : Raises s i e) :
    exec i s = .next (s.raise e) := by
  cases i with
  | rdreg addr =>
    obtain ⟨unmapped, rfl⟩ := raises
    exact exec_rdreg_of_unmapped addr s unmapped
  | wrreg addr =>
    obtain ⟨unmapped, rfl⟩ := raises
    exact exec_wrreg_of_unmapped addr s unmapped
  | _ =>
    have body := (raises_iff_body s _ e rfl).mp raises
    rw [exec_eq_complete _ s rfl, body, complete_error]

/-! ## What every end leaves unchanged -/

/-- Settles O54: none of the four ways to end writes a port, the queue or the configuration, and only the register write
writes CTRL or CRC_CFG. -/
theorem onlyWrregChangesParameters : Obligations.OnlyWrregChangesParameters := by
  intro i s t h
  cases endsIn_of_exec i s t h with
  | delivers o other body => exact ⟨rfl, rfl, rfl, fun _ => ⟨rfl, rfl⟩⟩
  | fails e raises => exact ⟨rfl, rfl, rfl, fun _ => ⟨rfl, rfl⟩⟩
  | reads addr r rdreg mapped => exact ⟨rfl, rfl, rfl, fun _ => ⟨rfl, rfl⟩⟩
  | writes addr r wrreg mapped =>
    exact ⟨writeReg_ports s r _, writeReg_hostQueue s r _, writeReg_config s r _, fun not => absurd wrreg (not addr)⟩

/-! ## The command on the ports -/

theorem portsFit_of_le (s : State) (din : s.ports.din.length ≤ s.config.maxLen.toNat)
    (desc : s.ports.desc.length ≤ s.config.maxLen.toNat) : s.portsFit = true :=
  decide_eq_true ⟨din, desc⟩

theorem runCommand_of_decoded (s : State) (i : Instr) (fits : s.portsFit = true) (hd : decodeWord s.ports.cmd = .ok i) :
    runCommand s = exec i s := by
  rw [runCommand, if_neg (Bool.not_eq_false _ ▸ fits), hd]

theorem runCommand_of_rejected (s : State) (r : DecodeReject) (fits : s.portsFit = true)
    (hd : decodeWord s.ports.cmd = .error r) : runCommand s = .next (s.raise (.illegalCmd s.ports.cmd)) := by
  rw [runCommand, if_neg (Bool.not_eq_false _ ▸ fits), hd]

theorem runCommand_eq_refused_iff (s : State) (r : Refusal) :
    runCommand s = .refused r ↔ r = .portTooLong ∧ s.portsFit = false := by
  obtain ⟨long, run⟩ | ⟨fits, -, run⟩ | ⟨fits, i, -, run⟩ := runCommand_cases s
  · rw [run]
    exact ⟨fun h => ⟨(Host.Outcome.refused.inj h).symm, long⟩, fun ⟨h, _⟩ => by rw [h]⟩
  · exact iff_of_false (by rw [run]; exact nofun) fun ⟨_, long⟩ => by rw [long] at fits; cases fits
  · exact iff_of_false (by rw [run]; exact exec_ne_refused i s r) fun ⟨_, long⟩ => by rw [long] at fits; cases fits

/-- A command that is not refused leaves the ports, the queue and the configuration as it finds them. -/
theorem runCommand_frame (s t : State) (h : runCommand s = .next t) :
    t.ports = s.ports ∧ t.hostQueue = s.hostQueue ∧ t.config = s.config := by
  obtain ⟨-, run⟩ | ⟨-, -, run⟩ | ⟨-, i, -, run⟩ := runCommand_cases s
  · cases run.symm.trans h
  · cases run.symm.trans h
    exact ⟨rfl, rfl, rfl⟩
  · obtain ⟨ports, hostQueue, config, -⟩ := onlyWrregChangesParameters i s t (run.symm.trans h)
    exact ⟨ports, hostQueue, config⟩

/-! ## The step -/

/-- R255: what ILLEGAL_CMD writes. -/
theorem raise_illegalCmd (s : State) (w : Word) :
    s.raise (.illegalCmd w) =
      { s with
        status := 0x00000010, errInfo := w, dout := [], vout := none, rdata := 0
        errLog := .illegalCmd w :: s.errLog } := by
  have status : statusWord 0x10 {} = 0x00000010 := by decide
  simp only [State.raise, BlockError.code, BlockError.info, BlockError.flags, status]

/-- Settles O4: the decoder rejects the word, which `step` answers with ILLEGAL_CMD. -/
theorem illegalWordRaisesIllegalCmd : Obligations.IllegalWordRaisesIllegalCmd := by
  intro s p rest queue din desc illegal
  obtain ⟨r, rejected⟩ := (decodeRejectsExactlyIllegalWords p.cmd).mpr illegal
  have run := runCommand_of_rejected { s with ports := p, hostQueue := rest } r (portsFit_of_le _ din desc) rejected
  rw [raise_illegalCmd] at run
  exact (step_issue s p rest queue).trans run

/-- Settles O5: the ports fit, so the word is decoded and its command runs. -/
theorem stepRunsDecodedCommand : Obligations.StepRunsDecodedCommand := by
  intro s p rest i queue din desc decoded
  rw [step_issue s p rest queue]
  exact runCommand_of_decoded _ i (portsFit_of_le _ din desc) decoded

/-- Settles O6: an idle step and a reset are never refused, and a command only for its ports. -/
theorem stepRefusesExactlyLongPorts : Obligations.StepRefusesExactlyLongPorts := by
  intro s r
  match hq : s.hostQueue with
  | [] => simp [step_idle s hq]
  | .reset :: rest => simp [step_reset s rest hq]
  | .issue p :: rest =>
    rw [step_issue s p rest hq, runCommand_eq_refused_iff]
    simp only [portsFit_eq, decide_eq_false_iff_not, not_and_or, not_le, gt_iff_lt, List.cons.injEq, HostEvent.issue.injEq,
      and_assoc, exists_and_left, exists_eq_left']

/-- Settles O8: by the host's next action; a command keeps the queue it finds, which is what the host does after it. -/
theorem stepTakesOneHostEvent : Obligations.StepTakesOneHostEvent := by
  intro s t h
  match hq : s.hostQueue with
  | [] =>
    cases (step_idle s hq).symm.trans h
    exact ⟨hq, rfl, rfl⟩
  | .reset :: rest =>
    cases (step_reset s rest hq).symm.trans h
    exact ⟨rfl, rfl, rfl⟩
  | .issue p :: rest =>
    obtain ⟨ports, hostQueue, config⟩ := runCommand_frame _ t ((step_issue s p rest hq).symm.trans h)
    exact ⟨hostQueue, config, ports⟩

end Sys2Proof.Machine
end

section
/-! PROOFS. STATUS and ERR_INFO (10_state.md rules R24 to R28, 60_exceptions.md rules R241, R255): where each field of the two
words stands, and the register invariant at reset and after every step. -/

namespace Sys2Proof.Machine

/-! ## The fields of STATUS -/

@[simp] theorem statusErr_statusWord (err : Byte) (f : Flags) : statusErr (statusWord err f) = err :=
  BitVec.extractLsb'_append_eq_right

@[simp] theorem statusTrunc_statusWord (err : Byte) (f : Flags) : statusTrunc (statusWord err f) = f.trunc := by
  simp only [statusTrunc, statusWord, BitVec.getLsbD_append]
  simp

@[simp] theorem statusNodata_statusWord (err : Byte) (f : Flags) : statusNodata (statusWord err f) = f.nodata := by
  simp only [statusNodata, statusWord, BitVec.getLsbD_append]
  simp

@[simp] theorem statusDevstate_statusWord (err : Byte) (f : Flags) : statusDevstate (statusWord err f) = f.devstate := by
  simp only [statusDevstate, statusWord, BitVec.getLsbD_append]
  simp

@[simp] theorem statusDyn_statusWord (err : Byte) (f : Flags) : statusDyn (statusWord err f) = f.dyn := by
  simp only [statusDyn, statusWord, BitVec.getLsbD_append]
  simp

theorem statusWord_lt (err : Byte) (f : Flags) : (statusWord err f).toNat < 2 ^ 12 := by
  have code := err.isLt
  have flag (b : Bool) : b.toNat ≤ 1 := b.toNat_le
  have trunc := flag f.trunc
  have nodata := flag f.nodata
  have devstate := flag f.devstate
  have dyn := flag f.dyn
  simp only [statusWord, toNat_append_eq_add, BitVec.toNat_ofBool, BitVec.toNat_ofNat]
  omega

/-- R26: STATUS[31:12] reads 0. -/
theorem statusWord_reserved (err : Byte) (f : Flags) (k : Nat) (hk : 12 ≤ k) :
    (statusWord err f).getLsbD k = false :=
  Nat.testBit_lt_two_pow ((statusWord_lt err f).trans_le (Nat.pow_le_pow_right (by decide) hk))

/-- Settles O11: the bits of the five fields of STATUS, and those above them. -/
theorem statusLayout : Obligations.StatusLayout := fun err f =>
  ⟨statusErr_statusWord err f, statusTrunc_statusWord err f, statusNodata_statusWord err f,
    statusDevstate_statusWord err f, statusDyn_statusWord err f, statusWord_reserved err f⟩

/-! ## The fields of ERR_INFO -/

/-- Settles O12: each error's fields weigh what the widths of those to their right say. -/
theorem errInfoLayout : Obligations.ErrInfoLayout := by
  have ofBool (b : Bool) (n : Nat) : b.toNat * n = if b then n else 0 := by cases b <;> simp
  refine ⟨?_, ?_, ?_, ?_, ?_, ?_, ?_, ?_, ?_, ?_, ?_, ?_, ?_, rfl, rfl, rfl, rfl, rfl, rfl, rfl, rfl⟩
  case refine_6 => exact fun w => rfl
  all_goals
    intros
    simp only [BlockError.info, toNat_append_eq_add, BitVec.toNat_ofNat, BitVec.toNat_ofBool, ← ofBool]
    omega

/-! ## The register invariant -/

theorem code_mem_errorCodes (e : BlockError) : e.code ∈ errorCodes := by cases e <;> simp [BlockError.code, errorCodes]

theorem code_ne_zero (e : BlockError) : e.code ≠ 0 := by
  have listed := code_mem_errorCodes e
  intro zero
  rw [zero] at listed
  revert listed
  decide

/-- R255: an error leaves no flag but DEVSTATE, and that one only of DEVICE. -/
theorem error_flags (e : BlockError) :
    e.flags.trunc = false ∧ e.flags.nodata = false ∧ e.flags.dyn = false ∧
      (e.flags.devstate = false ∨ e.code = 0x04) := by
  cases e with
  | device status => exact ⟨rfl, rfl, rfl, .inr rfl⟩
  | _ => exact ⟨rfl, rfl, rfl, .inl rfl⟩

/-- Settles O10: by computing each part on the reset values. -/
theorem resetMeetsRegisterInvariant : Obligations.ResetMeetsRegisterInvariant := by
  unfold Obligations.ResetMeetsRegisterInvariant
  decide

/-- The parts of the invariant that speak of STATUS, ERR_INFO and the log. -/
def State.ShowsLastError (s : State) : Prop :=
  s.statusReservedOk = true ∧ s.errCodeOk = true ∧ s.infoOk = true ∧ s.errFlagsOk = true ∧ s.logOk = true

theorem inv_iff (s : State) : s.Inv ↔ s.ctrlOk = true ∧ s.widthOk = true ∧ s.ShowsLastError := Iff.rfl

theorem statusReservedOk_of_statusWord (s : State) (err : Byte) (f : Flags) (h : s.status = statusWord err f) :
    s.statusReservedOk = true := by
  rw [State.statusReservedOk, h, beq_iff_eq]
  apply BitVec.eq_of_toNat_eq
  have bound := statusWord_lt err f
  rw [BitVec.extractLsb'_toNat, Nat.shiftRight_eq_div_pow, Nat.div_eq_of_lt bound]
  rfl

theorem succeed_showsLastError (s : State) (o : Output) : (s.succeed o).ShowsLastError := by
  refine ⟨statusReservedOk_of_statusWord _ 0 o.flags rfl, ?_, ?_, ?_, ?_⟩
  · simp [State.errCodeOk]
  · simp [State.infoOk]
  · simp [State.errFlagsOk]
  · simp [State.logOk]

theorem raise_showsLastError (s : State) (e : BlockError) : (s.raise e).ShowsLastError := by
  obtain ⟨trunc, nodata, dyn, devstate⟩ := error_flags e
  have nonzero : ¬ e.code = 0#8 := code_ne_zero e
  refine ⟨statusReservedOk_of_statusWord _ e.code e.flags rfl, ?_, ?_, ?_, ?_⟩
  · simp [State.errCodeOk, code_mem_errorCodes]
  · simp [State.infoOk, nonzero]
  · simpa [State.errFlagsOk, nonzero, trunc, nodata, dyn] using devstate
  · simp [State.logOk]

/-- A state that shows the same STATUS and ERR_INFO with the same log shows the same last error. -/
theorem showsLastError_congr (s t : State) (status : t.status = s.status) (errInfo : t.errInfo = s.errInfo)
    (errLog : t.errLog = s.errLog) (h : s.ShowsLastError) : t.ShowsLastError := by
  unfold State.ShowsLastError State.statusReservedOk State.errCodeOk State.infoOk State.errFlagsOk State.logOk at *
  rw [status, errInfo, errLog]
  exact h

/-- R24: CTRL keeps bit 0 of what is written. -/
theorem writeReg_ctrlOk (s : State) (r : Reg) (v : Word) (h : s.ctrlOk = true) : (s.writeReg r v).ctrlOk = true := by
  rw [State.ctrlOk, writeReg_ctrl, beq_iff_eq]
  split_ifs
  · rw [BitVec.extractLsb'_and]
    exact BitVec.and_zero
  · exact beq_iff_eq.mp h

/-- R25: CRC_CFG keeps bits [23:0] of what is written. -/
theorem writeReg_widthOk (s : State) (r : Reg) (v : Word) (h : s.widthOk = true) : (s.writeReg r v).widthOk = true := by
  rw [State.widthOk, writeReg_crcCfg, beq_iff_eq]
  split_ifs
  · rw [BitVec.extractLsb'_or, BitVec.extractLsb'_and]
    exact (congrArg _ BitVec.and_zero).trans BitVec.or_zero
  · exact beq_iff_eq.mp h

/-- Each of the four ways a command can end keeps the invariant. -/
theorem exec_keeps_inv (i : Instr) (s t : State) (inv : s.Inv) (h : exec i s = .next t) : t.Inv := by
  obtain ⟨ctrl, width, shows⟩ := (inv_iff s).mp inv
  cases endsIn_of_exec i s t h with
  | delivers o other body => exact ⟨ctrl, width, succeed_showsLastError s o⟩
  | fails e raises => exact ⟨ctrl, width, raise_showsLastError s e⟩
  | reads addr r rdreg mapped => exact inv
  | writes addr r wrreg mapped =>
    exact ⟨writeReg_ctrlOk s r _ ctrl, writeReg_widthOk s r _ width,
      showsLastError_congr s _ (writeReg_status s r _) (writeReg_errInfo s r _) (writeReg_errLog s r _) shows⟩

/-- Settles O9: an idle step keeps every register, a reset ends in the reset values, and a command ends as `exec_keeps_inv`
says or raises ILLEGAL_CMD. -/
theorem stepKeepsRegisterInvariant : Obligations.StepKeepsRegisterInvariant := by
  intro s t inv h
  match hq : s.hostQueue with
  | [] =>
    cases (step_idle s hq).symm.trans h
    exact inv
  | .reset :: rest =>
    cases (step_reset s rest hq).symm.trans h
    exact resetMeetsRegisterInvariant
  | .issue p :: rest =>
    have run := (step_issue s p rest hq).symm.trans h
    obtain ⟨-, refused⟩ | ⟨-, -, illegal⟩ | ⟨-, i, -, decoded⟩ := runCommand_cases { s with ports := p, hostQueue := rest }
    · cases refused.symm.trans run
    · cases illegal.symm.trans run
      obtain ⟨ctrl, width, -⟩ := (inv_iff s).mp inv
      exact ⟨ctrl, width, raise_showsLastError _ _⟩
    · exact exec_keeps_inv i { s with ports := p, hostQueue := rest } t inv (decoded.symm.trans run)

end Sys2Proof.Machine
end

section
/-! PROOFS. Byte order and validation (20_memory.md rule R54, 30_encoding.md rules R75 to R88): decoding inverts encoding, and
validation inverts the assembly of the legal descriptors. -/

namespace Sys2Proof.Machine

/-! ## Encoded integers -/

theorem natBE_bytesBE (n u : Nat) : natBE (bytesBE n u) = u % 2 ^ (8 * n) := by
  induction n with
  | zero => simp [bytesBE, natBE, Nat.mod_one]
  | succ n ih =>
    rw [bytesBE, natBE, bytesBE_length, ih, BitVec.toNat_ofNat, Nat.shiftLeft_eq, Nat.shiftRight_eq_div_pow, Nat.mul_succ,
      Nat.pow_add, Nat.mod_mul, Nat.add_comm, Nat.mul_comm (_ % _)]

theorem natLE_bytesLE (n u : Nat) : natLE (bytesLE n u) = u % 2 ^ (8 * n) := by
  induction n generalizing u with
  | zero => simp [bytesLE, natLE, Nat.mod_one]
  | succ n ih =>
    have width : 8 * (n + 1) = 8 + 8 * n := by omega
    rw [bytesLE, natLE, ih, BitVec.toNat_ofNat, Nat.shiftLeft_eq, Nat.shiftRight_eq_div_pow, width, Nat.pow_add, Nat.mod_mul,
      Nat.mul_comm (_ % _)]

@[simp] theorem decU_enc (o : Order) (n : Nat) (v : Int) : decU o (enc o n v) = zext (8 * n) v := by
  have fits : zext (8 * n) v % 2 ^ (8 * n) = zext (8 * n) v := Nat.mod_eq_of_lt (zext_lt _ v)
  cases o with
  | be => exact (natBE_bytesBE n _).trans fits
  | le => exact (natLE_bytesLE n _).trans fits

theorem zext_cast (n : Nat) (v : Int) : (zext n v : Int) = v % 2 ^ n :=
  Int.toNat_of_nonneg (Int.emod_nonneg v (by positivity))

theorem zext_of_range (n : Nat) (v : Int) (low : 0 ≤ v) (high : v < 2 ^ n) : (zext n v : Int) = v := by
  rw [zext_cast, Int.emod_eq_of_lt low high]

theorem zext_natCast_of_lt (n u : Nat) (h : u < 2 ^ n) : zext n u = u := by
  have range := zext_of_range n u (Int.natCast_nonneg u) (by exact_mod_cast h)
  exact_mod_cast range

/-- Only the low bits count (R9). -/
theorem sext_zext (n : Nat) (v : Int) : sext n (zext n v) = sext n v := by
  simp only [sext, zext_cast, Int.emod_emod]

theorem sext_of_range (n : Nat) (v : Int) (hn : 0 < n) (low : -(2 : Int) ^ (n - 1) ≤ v) (high : v < 2 ^ (n - 1)) :
    sext n v = v := by
  have half : (2 : Int) ^ n = 2 * 2 ^ (n - 1) := by rw [← pow_succ', Nat.sub_add_cancel hn]
  rw [sext, half]
  by_cases neg : v < 0
  · have wrapped : v % (2 * 2 ^ (n - 1)) = v + 2 * 2 ^ (n - 1) := by
      rw [← Int.add_emod_right, Int.emod_eq_of_lt (by omega) (by omega)]
    rw [wrapped, if_pos (by omega)]
    omega
  · rw [Int.emod_eq_of_lt (by omega) (by omega), if_neg (by omega)]

theorem decS_enc_of_range (o : Order) (n : Nat) (v : Int) (hn : 0 < n) (low : -(2 : Int) ^ (8 * n - 1) ≤ v)
    (high : v < 2 ^ (8 * n - 1)) : decS o (enc o n v) = v := by
  rw [decS, enc_length, decU_enc, sext_zext, sext_of_range _ v (by omega) low high]

/-- Settles O14: the low bits of the integer are what both readings see. -/
theorem decodeInvertsEncodeBytes : Obligations.DecodeInvertsEncodeBytes :=
  fun o n v => ⟨decU_enc o n v, decS_enc_of_range o n v⟩

/-! ## The length check -/

theorem checkField_error_ne_length (use : Use) (i strings : Nat) (f : Field) (field : Byte) :
    checkField use i strings f ≠ .error (.usage .length field) := by
  unfold checkField fieldUsage
  split_ifs <;> simp

theorem parseField_error_ne_length (use : Use) (i strings : Nat) (t c field : Byte) :
    parseField use i strings t c ≠ .error (.usage .length field) := by
  obtain ⟨-, hp⟩ | ⟨-, -, hp⟩ | ⟨-, e, sh, -, -, hp⟩ := parseField_cases use i strings t c <;> rw [hp]
  · simp [fieldUsage]
  · simp [fieldUsage]
  · exact checkField_error_ne_length use i strings _ field

theorem parseFields_error_ne_length (use : Use) (i strings : Nat) (bytes : List Byte) (field : Byte) :
    parseFields use i strings bytes ≠ .error (.usage .length field) := by
  induction i, strings, bytes using parseFields.induct (use := use) with
  | case1 i strings t c rest e bad =>
    rw [parseFields, bad, ← bad]
    intro h
    exact parseField_error_ne_length use i strings t c field (bad.trans (by simpa [bad] using h))
  | case2 i strings t c rest f good e bad ih =>
    rw [bad] at ih
    simpa [parseFields, good, bad] using ih
  | case3 i strings t c rest f good fs others ih => simp [parseFields, good, others]
  | case4 bytes i strings short =>
    rw [parseFields]
    · exact nofun
    · exact short

/-- Settles O16: the length is checked first, and no later check names it. -/
theorem wrongDescriptorLengthIsSubcode2 : Obligations.WrongDescriptorLengthIsSubcode2 := by
  intro use bytes
  match bytes with
  | [] => simp [validate]
  | [_] => simp [validate]
  | hdr :: nf :: rest =>
    have lengthBad : ((hdr :: nf :: rest).length < 2 ∨
        (hdr :: nf :: rest).length ≠ 2 + 2 * ((hdr :: nf :: rest).getD 1 0).toNat) ↔ rest.length ≠ 2 * nf.toNat := by
      simp only [List.length_cons, List.getD_cons_succ, List.getD_cons_zero]
      omega
    rw [lengthBad, validate]
    split_ifs with length header empty
    · exact iff_of_true rfl length
    · exact iff_of_false (by simp) length
    · exact iff_of_false (by simp) length
    · refine iff_of_false ?_ length
      have fields := parseFields_error_ne_length use 0 0 rest 0xFF
      cases hp : parseFields use 0 0 rest with
      | error e => simpa [hp] using fields
      | ok fs => exact nofun

/-! ## A type byte and its field -/

/-- R77: `ETYPE | SHAPE << 4 | FOLD << 6`, in numbers. -/
theorem typeByte_toNat (f : Field) :
    (typeByte f).toNat = (etypeCode f.etype).toNat + (shapeCode f.shape).toNat * 16 + if f.fold then 64 else 0 := by
  have fold : (if f.fold then 64 else 0) = f.fold.toNat * 64 := by cases f.fold <;> rfl
  simp only [typeByte, toNat_append_eq_add, BitVec.toNat_ofBool, BitVec.toNat_ofNat, fold]
  omega

/-- A field is read from its own type byte and COUNT byte only (R77). -/
theorem eq_typeByte_of_parseField (use : Use) (i strings : Nat) (t c : Byte) (f : Field)
    (h : parseField use i strings t c = .ok f) : t = typeByte f ∧ c = f.count := by
  obtain ⟨-, hp⟩ | ⟨-, -, hp⟩ | ⟨clear, e, sh, etype, shape, hp⟩ := parseField_cases use i strings t c
  · cases hp.symm.trans h
  · cases hp.symm.trans h
  · obtain rfl := checkField_ok _ _ _ _ _ (hp.symm.trans h)
    refine ⟨BitVec.eq_of_toNat_eq ?_, rfl⟩
    rw [typeByte_toNat]
    simp only [← etype, ← shape, typeBits_fold_iff]
    split_ifs <;> omega

/-- The bytes of the fields that pass their checks are those of the fields in order. -/
theorem eq_fieldBytes_of_parseFields (use : Use) (i strings : Nat) (bytes : List Byte) (fs : List Field)
    (pairs : bytes.length % 2 = 0) (h : parseFields use i strings bytes = .ok fs) : bytes = fieldBytes fs := by
  induction i, strings, bytes using parseFields.induct (use := use) generalizing fs with
  | case1 i strings t c rest e bad => simp [parseFields, bad] at h
  | case2 i strings t c rest f good e bad ih => simp [parseFields, good, bad] at h
  | case3 i strings t c rest f good fs' others ih =>
    obtain rfl : f :: fs' = fs := by simpa [parseFields, good, others] using h
    obtain ⟨rfl, rfl⟩ := eq_typeByte_of_parseField use i strings t c f good
    have rest_eq := ih fs' (by simp only [List.length_cons] at pairs; omega) others
    rw [rest_eq]
    rfl
  | case4 bytes i strings short =>
    match bytes, short, pairs with
    | [], _, _ =>
      obtain rfl : [] = fs := by simpa [parseFields] using h
      rfl
    | t :: c :: rest, short, _ => exact absurd rfl (short t c rest)

/-! ## Legal descriptors -/

/-- R79 to R88, of the fields from index `i` on, with `strings` STRING fields before them. -/
def LegalFields (use : Use) (i strings : Nat) (fs : List Field) : Prop :=
  (∀ f ∈ fs, f.countOk = true ∧ f.stringOk = true ∧ f.foldOk use = true) ∧
    (use = .tx → i = 0 → ∀ f ∈ fs.head?, f.commandOk = true) ∧ strings + stringCount fs ≤ 1

theorem legalFields_cons (use : Use) (i strings : Nat) (f : Field) (fs : List Field) :
    LegalFields use i strings (f :: fs) ↔
      (f.countOk = true ∧ f.stringOk = true ∧ f.foldOk use = true ∧ (use = .tx → i = 0 → f.commandOk = true)) ∧
        LegalFields use (i + 1) (countString strings f) fs := by
  simp only [LegalFields, List.forall_mem_cons, List.head?_cons, Option.mem_some_iff, forall_eq',
    countString_add_stringCount, Nat.succ_ne_zero, false_imp_iff, imp_true_iff, true_and]
  tauto

/-- A field passes its checks exactly when it is legal and no second STRING field. -/
theorem checkField_eq_ok_iff (use : Use) (i strings : Nat) (f : Field) :
    checkField use i strings f = .ok f ↔
      (f.countOk = true ∧ f.stringOk = true ∧ f.foldOk use = true ∧ (use = .tx → i = 0 → f.commandOk = true)) ∧
        (f.shape = .string → strings = 0) := by
  have countOk : f.countOk = true ↔
      ¬ ((f.shape = .scalar ∧ f.count ≠ 0) ∨ (f.shape ≠ .scalar ∧ f.count = 0)) := by
    by_cases scalar : f.shape = .scalar <;> simp [Field.countOk, scalar]
  have stringOk : f.stringOk = true ↔ ¬ (f.shape = .string ∧ f.etype ≠ .u8) := by
    simp [Field.stringOk, imp_iff_not_or]
  have foldOk : f.foldOk use = true ↔
      ¬ (f.fold = true ∧ (f.shape ≠ .array ∨ isInt f.etype = false ∨ use = .tx)) := by
    cases use <;> simp [Field.foldOk, isInt_eq_contains, or_iff_not_imp_left]
  have commandOk : (use = .tx → i = 0 → f.commandOk = true) ↔
      ¬ (use = .tx ∧ i = 0 ∧ ¬ (f.shape = .scalar ∧ (f.etype = .u8 ∨ f.etype = .u16))) := by
    simp [Field.commandOk, or_iff_not_imp_left]
  have few : (f.shape = .string → strings = 0) ↔ ¬ (f.shape = .string ∧ strings + 1 > 1) := by
    simp
  rw [countOk, stringOk, foldOk, commandOk, few, checkField]
  split_ifs <;> simp_all

theorem countString_le_one_iff (strings : Nat) (f : Field) (few : strings ≤ 1) :
    countString strings f ≤ 1 ↔ (f.shape = .string → strings = 0) := by
  unfold countString
  split_ifs with string
  · simp [string]
  · simp [string, few]

/-- The fields pass their checks exactly when they are legal (R85). -/
theorem parseFields_fieldBytes_iff (use : Use) (i strings : Nat) (fs : List Field) (few : strings ≤ 1) :
    parseFields use i strings (fieldBytes fs) = .ok fs ↔ LegalFields use i strings fs := by
  induction fs generalizing i strings with
  | nil => simp [parseFields, LegalFields, stringCount, few]
  | cons f fs ih =>
    have bytes : fieldBytes (f :: fs) = typeByte f :: f.count :: fieldBytes fs := rfl
    rw [bytes, parseFields, parseField_typeByte, legalFields_cons]
    by_cases legal : checkField use i strings f = .ok f
    · obtain ⟨fieldLegal, first⟩ := (checkField_eq_ok_iff use i strings f).mp legal
      rw [← ih (i + 1) _ ((countString_le_one_iff strings f few).mpr first), and_iff_right fieldLegal]
      simp only [legal]
      cases parseFields use (i + 1) (countString strings f) (fieldBytes fs) <;> simp
    · refine iff_of_false ?_ ?_
      · cases hc : checkField use i strings f with
        | error e => simp
        | ok g => exact absurd (checkField_ok _ _ _ _ _ hc ▸ hc) legal
      · rintro ⟨fieldLegal, -, -, atMostOne⟩
        have first := (countString_le_one_iff strings f few).mp (by omega)
        exact legal ((checkField_eq_ok_iff use i strings f).mpr ⟨fieldLegal, first⟩)

/-- R86: a request descriptor has a first field, and it is a command field. -/
theorem commandOk_iff (use : Use) (d : Descr) :
    d.commandOk use = true ↔
      ¬ (use = .tx ∧ d.fields = []) ∧ (use = .tx → 0 = 0 → ∀ f ∈ d.fields.head?, f.commandOk = true) := by
  cases use <;> cases hf : d.fields <;> simp [Descr.commandOk, hf]

theorem wellFormed_iff (use : Use) (d : Descr) :
    d.wellFormed use = true ↔
      d.lengthOk = true ∧ ¬ (use = .tx ∧ d.fields = []) ∧ LegalFields use 0 0 d.fields := by
  simp only [Descr.wellFormed, LegalFields, Bool.and_eq_true, commandOk_iff, decide_eq_true_iff, List.all_eq_true,
    Nat.zero_add, and_assoc]
  tauto

/-! ## Validation and assembly -/

theorem orderOf_orderByte (o : Order) : orderOf (orderByte o) = o := by cases o <;> rfl

theorem eq_orderByte_of_reserved_clear (hdr : Byte) (h : hdr.extractLsb' 1 7 = 0) : hdr = orderByte (orderOf hdr) := by
  revert hdr
  decide

/-- The bytes of a legal descriptor are its assembly: NF, ORDER and each field's bytes are all that validation reads. -/
theorem eq_assemble_of_validate (use : Use) (bytes : List Byte) (d : Descr) (h : validate use bytes = .ok d) :
    bytes = assemble d := by
  match bytes with
  | [] => cases h
  | [_] => cases h
  | hdr :: nf :: rest =>
    simp only [validate] at h
    split_ifs at h with length header empty
    cases hp : parseFields use 0 0 rest with
    | error e => simp [hp] at h
    | ok fs =>
      obtain rfl : ⟨orderOf hdr, fs⟩ = d := by simpa [hp] using h
      obtain rfl := eq_fieldBytes_of_parseFields use 0 0 rest fs (by omega) hp
      have count : fs.length = nf.toNat := by
        rw [fieldBytes_length] at length
        omega
      rw [assemble, ← eq_orderByte_of_reserved_clear hdr (not_not.mp header), count, BitVec.ofNat_toNat, BitVec.setWidth_eq]

/-- Validation of an assembly answers its descriptor exactly when that is legal. -/
theorem validate_assemble_iff (use : Use) (d : Descr) (hlen : d.lengthOk = true) :
    validate use (assemble d) = .ok d ↔ d.wellFormed use = true := by
  have few : d.fields.length ≤ 255 := of_decide_eq_true hlen
  have count : (BitVec.ofNat 8 d.fields.length).toNat = d.fields.length := by
    rw [BitVec.toNat_ofNat]
    omega
  have length : ¬ (fieldBytes d.fields).length ≠ 2 * (BitVec.ofNat 8 d.fields.length).toNat := by
    rw [count, fieldBytes_length]
    omega
  have empty : (use = .tx ∧ BitVec.ofNat 8 d.fields.length = 0) ↔ use = .tx ∧ d.fields = [] := by
    rw [BitVec.toNat_eq, count]
    simp
  rw [wellFormed_iff, and_iff_right hlen, ← parseFields_fieldBytes_iff use 0 0 d.fields (Nat.zero_le 1), assemble, validate,
    if_neg length, if_neg (by simp [orderByte_reservedBits_clear]), orderOf_orderByte]
  simp only [empty]
  split_ifs with noCommand
  · simp [noCommand]
  · rw [and_iff_right noCommand]
    obtain ⟨order, fields⟩ := d
    cases parseFields use 0 0 (fieldBytes fields) <;> simp

theorem validate_iff (use : Use) (bytes : List Byte) (d : Descr) :
    validate use bytes = .ok d ↔ bytes = assemble d ∧ d.wellFormed use = true := by
  constructor
  · intro h
    have bytes_eq := eq_assemble_of_validate use bytes d h
    have hlen : d.lengthOk = true := decide_eq_true (validate_fields_length_le use bytes d h)
    exact ⟨bytes_eq, (validate_assemble_iff use d hlen).mp (bytes_eq ▸ h)⟩
  · rintro ⟨rfl, legal⟩
    exact (validate_assemble_iff use d ((wellFormed_iff use d).mp legal).1).mpr legal

/-- Settles O15: validation answers a descriptor of its own bytes, and the assembly of a legal one passes each check. -/
theorem validateIffAssembledLegalDescriptor : Obligations.ValidateIffAssembledLegalDescriptor := by
  refine ⟨validate_iff, fun f => ⟨(etypeCode f.etype).toNat, (shapeCode f.shape).toNat, ?_, ?_, typeByte_toNat f⟩⟩
  · exact etypeOf_code f.etype
  · exact shapeOf_code f.shape

end Sys2Proof.Machine
end

section
/-! PROOFS. Packing (40_field_codec.md rules R110 to R114, 30_encoding.md rules R82, R90, R91): which arguments a slot accepts,
what the slots make of them, and every way PACK can end. -/

namespace Sys2Proof.Machine

/-! ## The request descriptor -/

/-- R86: a request descriptor begins with a SCALAR of type U8 or U16. -/
theorem exists_command_of_valid (bytes : List Byte) (d : Descr) (hd : validate .tx bytes = .ok d) :
    ∃ f rest, d.fields = f :: rest ∧ f.shape = .scalar ∧ (f.etype = .u8 ∨ f.etype = .u16) := by
  obtain ⟨-, legal⟩ := (validate_iff .tx bytes d).mp hd
  obtain ⟨-, present, -, command, -⟩ := (wellFormed_iff .tx d).mp legal
  cases hf : d.fields with
  | nil => exact absurd ⟨rfl, hf⟩ present
  | cons f rest =>
    have commandOk := command rfl rfl f (by rw [hf]; rfl)
    exact ⟨f, rest, rfl, by simpa [Field.commandOk] using commandOk⟩

theorem cmdWidth_of_valid (bytes : List Byte) (d : Descr) (hd : validate .tx bytes = .ok d) :
    cmdWidth d = 1 ∨ cmdWidth d = 2 := by
  obtain ⟨f, rest, fields, -, u8 | u16⟩ := exists_command_of_valid bytes d hd
  · exact .inl (by rw [cmdWidth, fields]; exact congrArg etypeSize u8)
  · exact .inr (by rw [cmdWidth, fields]; exact congrArg etypeSize u16)

theorem fieldSlots_length_le (f : Field) : (fieldSlots f).length ≤ 255 := by
  have count : f.count.toNat ≤ 255 := Nat.le_of_lt_succ f.count.isLt
  unfold fieldSlots
  cases f.shape <;> simp [count]

/-- The index of a slot fits the 16 bits that ERR_INFO has for it. -/
theorem slots_length_lt (bytes : List Byte) (d : Descr) (hd : validate .tx bytes = .ok d) :
    (slots d).length < 65536 := by
  have fields := validate_fields_length_le .tx bytes d hd
  have bound := List.sum_le_card_nsmul (d.fields.tail.map fun f => (fieldSlots f).length) 255
    (List.forall_mem_map.mpr fun f _ => fieldSlots_length_le f)
  rw [List.length_map, List.length_tail, smul_eq_mul] at bound
  rw [slots, List.length_flatMap]
  omega

/-! ## Slots -/

theorem forall₂_of_checkSlots_none (k : Nat) (ss : List Slot) (vs : List Value) (hlen : vs.length = ss.length)
    (h : checkSlots k ss vs = none) : List.Forall₂ slotAccepts ss vs := by
  induction ss generalizing k vs with
  | nil =>
    obtain rfl := List.length_eq_zero_iff.mp hlen
    exact .nil
  | cons sl ss ih =>
    obtain ⟨v, vs, rfl⟩ := List.exists_cons_of_length_eq_add_one hlen
    rw [checkSlots] at h
    cases hc : checkSlot k sl v with
    | some e => simp [hc] at h
    | none => exact .cons ((checkSlot_none_iff k sl v).mp hc) (ih (k + 1) vs (Nat.succ.inj hlen) (by simpa [hc] using h))

/-- The checks pass the slots that accept their arguments and go on with the others. -/
theorem checkSlots_append (k : Nat) (ss ss' : List Slot) (vs vs' : List Value) (h : List.Forall₂ slotAccepts ss vs) :
    checkSlots k (ss ++ ss') (vs ++ vs') = checkSlots (k + ss.length) ss' vs' := by
  induction h generalizing k with
  | nil => rfl
  | @cons sl v ss vs accepts rest ih =>
    have next : k + 1 + ss.length = k + (sl :: ss).length := by
      rw [List.length_cons]
      omega
    simp only [List.cons_append, checkSlots, (checkSlot_none_iff k sl v).mpr accepts, ih, next]

theorem checkSlots_of_accepts (k : Nat) (ss : List Slot) (vs : List Value) (h : List.Forall₂ slotAccepts ss vs) :
    checkSlots k ss vs = none := by
  have all := checkSlots_append k ss [] vs [] h
  rwa [List.append_nil, List.append_nil] at all

/-- The checks come to the slot after those that accept their arguments. -/
theorem checkSlots_of_firstBad (ss : List Slot) (vs : List Value) (k : Nat) (sl : Slot) (v : Value) (e : BlockError)
    (before : List.Forall₂ slotAccepts (ss.take k) (vs.take k)) (hsl : ss[k]? = some sl) (hv : vs[k]? = some v)
    (bad : checkSlot k sl v = some e) : checkSlots 0 ss vs = some e := by
  obtain ⟨hks, rfl⟩ := List.getElem?_eq_some_iff.mp hsl
  obtain ⟨hkv, rfl⟩ := List.getElem?_eq_some_iff.mp hv
  have place : 0 + (ss.take k).length = k := by rw [List.length_take_of_le hks.le, Nat.zero_add]
  rw [← List.take_append_drop k ss, ← List.take_append_drop k vs, checkSlots_append 0 _ _ _ _ before, place,
    List.drop_eq_getElem_cons hks, List.drop_eq_getElem_cons hkv, checkSlots, bad]

/-- R111: the kind each slot accepts. -/
theorem kindOk_iff (sl : Slot) (v : Value) : kindOk sl v = true ↔
    (∃ e i, sl = .elem e ∧ v = .int i ∧ e ∈ [EType.u8, .i8, .u16, .i16, .u32, .i32, .u64, .i64]) ∨
    (∃ b, sl = .elem .bool ∧ v = .bool b) ∨ (∃ x, sl = .elem .f32 ∧ v = .f32 x) ∨
    (∃ x, sl = .elem .f64 ∧ v = .f64 x) ∨ (∃ c b, sl = .str c ∧ v = .bytes b) := by
  cases sl with
  | str c => cases v <;> simp [kindOk]
  | elem e => cases v <;> cases e <;> simp [kindOk, isInt]

theorem encSlot_length (o : Order) (sl : Slot) (v : Value) (h : slotAccepts sl v) :
    (encSlot o sl v).length = slotSize sl := by
  obtain ⟨kind, -⟩ := h
  obtain ⟨e, i, rfl, rfl, -⟩ | ⟨b, rfl, rfl⟩ | ⟨x, rfl, rfl⟩ | ⟨x, rfl, rfl⟩ | ⟨c, b, rfl, rfl⟩ := (kindOk_iff sl v).mp kind
  · exact enc_length o _ i
  · rfl
  · exact enc_length o 4 _
  · exact enc_length o 8 _
  · rw [encSlot, slotSize]
    split_ifs with long
    · rw [List.length_take_of_le (Nat.le_of_lt long)]
    · rw [List.length_append, List.length_replicate]
      omega

/-- R91: the arguments take the room of their slots. -/
theorem encSlots_length (o : Order) (ss : List Slot) (vs : List Value) (h : List.Forall₂ slotAccepts ss vs) :
    (encSlots o ss vs).length = (ss.map slotSize).sum := by
  induction h with
  | nil => rfl
  | @cons sl v ss vs accepts rest ih =>
    rw [encSlots] at ih ⊢
    rw [List.zipWith_cons_cons, List.flatten_cons, List.length_append, ih, encSlot_length o sl v accepts, List.map_cons,
      List.sum_cons]

theorem truncates_iff (sl : Slot) (v : Value) :
    truncates sl v = true ↔ ∃ c b, sl = .str c ∧ v = .bytes b ∧ c < b.length := by
  cases sl <;> cases v <;> simp [truncates]

theorem anyTruncates_iff (ss : List Slot) (vs : List Value) : anyTruncates ss vs = true ↔ hasLongString ss vs := by
  simp only [anyTruncates, List.any_eq_true, id_eq, exists_eq_right, List.mem_iff_getElem?, List.getElem?_zipWith_eq_some,
    truncates_iff, hasLongString]
  constructor
  · rintro ⟨k, _, _, hsl, hv, c, b, rfl, rfl, long⟩
    exact ⟨k, c, b, hsl, hv, long⟩
  · rintro ⟨k, c, b, hsl, hv, long⟩
    exact ⟨k, _, _, hsl, hv, c, b, rfl, rfl, long⟩

/-! ## The packed request -/

/-- R114: what PACK makes of a request that it accepts. -/
def packedRequest (d : Descr) (cmdid : Nat) (args : List Value) : Packed where
  bytes := enc d.order (cmdWidth d) cmdid ++ encSlots d.order (slots d) args
  width := cmdWidth d
  trunc := anyTruncates (slots d) args

/-- R114: PACK accepts a request whose command id fits its field and whose arguments fit their slots. -/
theorem packArgs_eq_ok_iff (d : Descr) (cmdid : Nat) (vin : List Value) (r : Packed) :
    packArgs d cmdid vin = .ok r ↔
      cmdid < 2 ^ (8 * cmdWidth d) ∧ ∃ args, flatten vin = .ok args ∧ List.Forall₂ slotAccepts (slots d) args ∧
        r = packedRequest d cmdid args := by
  constructor
  · intro h
    obtain ⟨-, run⟩ | ⟨small, ⟨e, -, run⟩ | ⟨args, flat, ⟨-, run⟩ | ⟨hlen, ⟨e, -, run⟩ | ⟨checks, run⟩⟩⟩⟩ :=
      packArgs_cases d cmdid vin <;> cases run.symm.trans h
    exact ⟨small, args, flat, forall₂_of_checkSlots_none 0 _ _ hlen checks, rfl⟩
  · rintro ⟨small, args, flat, accepts, rfl⟩
    rw [packArgs, if_neg (Nat.not_le.mpr small), flat]
    simp only [accepts.length_eq, ne_eq, not_true_eq_false, if_false, checkSlots_of_accepts 0 _ _ accepts, packedRequest]

theorem packRequest_of_valid (p : Ports) (d : Descr) (hd : validate .tx p.desc = .ok d) :
    packRequest p = packArgs d p.cmdid p.vin := by
  rw [packRequest, hd]

theorem packBody_of_ok (p : Ports) (r : Packed) (h : packRequest p = .ok r) :
    packBody p = .ok { dout := r.bytes, rdata := BitVec.ofNat 32 r.width, flags := { trunc := r.trunc } } := by
  rw [packBody, h]

theorem packBody_of_error (p : Ports) (e : BlockError) (h : packRequest p = .error e) : packBody p = .error e := by
  rw [packBody, h]

theorem exec_pack_of_error (s : State) (d : Descr) (e : BlockError) (hd : validate .tx s.ports.desc = .ok d)
    (h : packArgs d s.ports.cmdid s.ports.vin = .error e) : exec .pack s = .next (s.raise e) :=
  exec_of_raises .pack s e (packBody_of_error _ _ ((packRequest_of_valid _ d hd).trans h))

/-- A command that packs a request leaves TRUNC and no other flag in STATUS (R26, R255). -/
theorem succeed_packed (s : State) (out : List Byte) (rdata : Word) (trunc : Bool) :
    s.succeed { dout := out, rdata := rdata, flags := { trunc := trunc } } =
      { s with
        dout := out, vout := none, rdata := rdata, status := if trunc then 0x00000100 else 0x00000000, errInfo := 0 } := by
  have status : statusWord 0 { trunc := trunc } = if trunc then 0x00000100 else 0x00000000 := by
    cases trunc <;> decide
  rw [State.succeed, status]

/-- The two values of STATUS that a packed request can leave, and when TRUNC is set (R113). -/
theorem truncStatus_iff (ss : List Slot) (args : List Value) :
    ((if anyTruncates ss args then 0x00000100 else 0x00000000 : Word) = 0x00000100 ∨
      (if anyTruncates ss args then 0x00000100 else 0x00000000 : Word) = 0x00000000) ∧
    ((if anyTruncates ss args then 0x00000100 else 0x00000000 : Word) = 0x00000100 ↔ hasLongString ss args) := by
  rw [← anyTruncates_iff]
  cases anyTruncates ss args <;> decide

/-- Settles O20: the request passes its checks, and each kind of slot encodes as `encSlot` says of it. -/
theorem packEncodesRequest : Obligations.PackEncodesRequest := by
  refine ⟨fun s d args hd small flat accepts => ?_, fun o => ⟨?_, rfl, rfl, fun _ => rfl, fun _ => rfl, ?_, ?_⟩⟩
  · have packed := (packArgs_eq_ok_iff d _ _ _).mpr ⟨small, args, flat, accepts, rfl⟩
    have body := packBody_of_ok _ _ ((packRequest_of_valid s.ports d hd).trans packed)
    refine ⟨if anyTruncates (slots d) args then 0x00000100 else 0x00000000, ?_, truncStatus_iff _ _⟩
    rw [exec_of_body_ok .pack s _ rfl body, succeed_packed]
    rfl
  · intro p hp i
    fin_cases hp <;> rfl
  · exact fun c b long => if_pos long
  · exact fun c b fits => if_neg (Nat.not_lt.mpr fits)

/-- A PACK that ends without error has packed its request. -/
theorem packed_of_exec_pack (s t : State) (d : Descr) (hd : validate .tx s.ports.desc = .ok d)
    (run : exec .pack s = .next t) (success : statusErr t.status = 0) :
    s.ports.cmdid < 2 ^ (8 * cmdWidth d) ∧ ∃ args, flatten s.ports.vin = .ok args ∧
      List.Forall₂ slotAccepts (slots d) args ∧ t.dout = (packedRequest d s.ports.cmdid args).bytes ∧
      t.rdata = BitVec.ofNat 32 (cmdWidth d) := by
  cases endsIn_of_exec .pack s t run with
  | fails e raises => exact absurd success (by simpa using code_ne_zero e)
  | reads addr r rdreg => cases rdreg
  | writes addr r wrreg => cases wrreg
  | delivers o other body =>
    have body : packBody s.ports = .ok o := body
    cases hr : packRequest s.ports with
    | error e => cases (packBody_of_error _ e hr).symm.trans body
    | ok r =>
      obtain rfl := Except.ok.inj ((packBody_of_ok _ r hr).symm.trans body)
      obtain ⟨small, args, flat, accepts, rfl⟩ :=
        (packArgs_eq_ok_iff d _ _ r).mp ((packRequest_of_valid _ d hd).symm.trans hr)
      exact ⟨small, args, flat, accepts, rfl, rfl⟩

/-- Settles O21: the parts of the packed request have the lengths of the rule. -/
theorem packedRequestLength : Obligations.PackedRequestLength := by
  intro s t d hd run success
  obtain ⟨-, args, -, accepts, dout, rdata⟩ := packed_of_exec_pack s t d hd run success
  refine ⟨cmdWidth_of_valid _ d hd, rdata, ?_⟩
  rw [dout, packedRequest, List.length_append, enc_length, encSlots_length _ _ _ accepts]

/-! ## The errors of PACK -/

theorem argIndex_info (index : Nat) (flag : Bool) :
    (0#15 ++ BitVec.ofBool flag ++ BitVec.ofNat 16 index : BitVec 32) =
      BitVec.ofNat 32 (index % 65536 + if flag then 65536 else 0) := by
  have ofBool : (if flag then 65536 else 0) = flag.toNat * 65536 := by cases flag <;> rfl
  refine word_eq_ofNat _ _ ?_
  simp only [toNat_append_eq_add, BitVec.toNat_ofNat, BitVec.toNat_ofBool, ofBool]
  omega

/-- R252, R255: what PACK_ARG writes. -/
theorem raise_packArg (s : State) (index : Nat) (count : Bool) :
    s.raise (.packArg index count) =
      { s with
        status := 0x00000015, errInfo := BitVec.ofNat 32 (index % 65536 + if count then 65536 else 0)
        dout := [], vout := none, rdata := 0, errLog := .packArg index count :: s.errLog } := by
  have status : statusWord 0x15 {} = 0x00000015 := by decide
  simp only [State.raise, BlockError.code, BlockError.flags, status, BlockError.info, argIndex_info]

/-- R253, R255: what PACK_RANGE writes. -/
theorem raise_packRange (s : State) (index : Nat) (cmd : Bool) :
    s.raise (.packRange index cmd) =
      { s with
        status := 0x00000016, errInfo := BitVec.ofNat 32 (index % 65536 + if cmd then 65536 else 0)
        dout := [], vout := none, rdata := 0, errLog := .packRange index cmd :: s.errLog } := by
  have status : statusWord 0x16 {} = 0x00000016 := by decide
  simp only [State.raise, BlockError.code, BlockError.flags, status, BlockError.info, argIndex_info]

theorem packArgs_of_bigId (d : Descr) (cmdid : Nat) (vin : List Value) (big : 2 ^ (8 * cmdWidth d) ≤ cmdid) :
    packArgs d cmdid vin = .error (.packRange 0 true) := by
  rw [packArgs, if_pos big]

theorem packArgs_of_nested (d : Descr) (cmdid : Nat) (vin : List Value) (e : BlockError)
    (small : cmdid < 2 ^ (8 * cmdWidth d)) (nested : flatten vin = .error e) : packArgs d cmdid vin = .error e := by
  rw [packArgs, if_neg (Nat.not_le.mpr small), nested]

theorem packArgs_of_count (d : Descr) (cmdid : Nat) (vin args : List Value) (small : cmdid < 2 ^ (8 * cmdWidth d))
    (flat : flatten vin = .ok args) (count : args.length ≠ (slots d).length) :
    packArgs d cmdid vin = .error (.packArg (min args.length (slots d).length) true) := by
  rw [packArgs, if_neg (Nat.not_le.mpr small), flat]
  exact if_pos count

theorem packArgs_of_badArgument (d : Descr) (cmdid : Nat) (vin args : List Value) (e : BlockError)
    (small : cmdid < 2 ^ (8 * cmdWidth d)) (flat : flatten vin = .ok args) (count : args.length = (slots d).length)
    (bad : checkSlots 0 (slots d) args = some e) : packArgs d cmdid vin = .error e := by
  rw [packArgs, if_neg (Nat.not_le.mpr small), flat]
  simp only [count, ne_eq, not_true_eq_false, if_false, bad]

/-- Settles O22: one clause for each check of R114 before those of the slots. -/
theorem packRejectsCommandIdThenCount : Obligations.PackRejectsCommandIdThenCount := by
  intro s d hd
  refine ⟨fun big => ?_, fun small before after xs good bad ys vin hbefore hxs hgood => ?_, fun small args flat count => ?_⟩
  · rw [exec_pack_of_error s d _ hd (packArgs_of_bigId d _ _ big), raise_packRange]
    rfl
  · have nested := flattenSplicesLists.2 before after xs good bad ys hbefore hxs hgood
    rw [← vin] at nested
    rw [exec_pack_of_error s d _ hd (packArgs_of_nested d _ _ _ small nested), raise_packArg]
    rfl
  · have index : min args.length (slots d).length % 65536 + 65536 = 0x10000 + min args.length (slots d).length := by
      have few := slots_length_lt _ d hd
      omega
    rw [exec_pack_of_error s d _ hd (packArgs_of_count d _ _ args small flat count), raise_packArg, if_pos rfl, index]

/-- R112: the range of an integer type. -/
theorem fits_iff (e : EType) (i : Int) :
    fits e i = true ↔
      if isSigned e then -(2 : Int) ^ (8 * etypeSize e - 1) ≤ i ∧ i < 2 ^ (8 * etypeSize e - 1)
      else 0 ≤ i ∧ i < 2 ^ (8 * etypeSize e) := by
  rw [fits]
  split_ifs <;> exact decide_eq_true_iff

/-- Settles O23: the checks come to the argument after those that are accepted; its kind is checked before its range. -/
theorem packRejectsFirstBadArgument : Obligations.PackRejectsFirstBadArgument := by
  refine ⟨fun s d args k sl v hd small flat count before hsl hv => ?_, kindOk_iff, fun i => ?_, fun sl v notInt => ?_⟩
  · have index : k % 65536 + 0 = k := by
      have few := slots_length_lt _ d hd
      obtain ⟨inside, -⟩ := List.getElem?_eq_some_iff.mp hsl
      omega
    have raised (e : BlockError) (bad : checkSlot k sl v = some e) : exec .pack s = .next (s.raise e) :=
      exec_pack_of_error s d e hd (packArgs_of_badArgument d _ _ args e small flat count
        (checkSlots_of_firstBad _ _ k sl v e before hsl hv bad))
    refine ⟨fun kind => ?_, fun kind range => ?_⟩
    · rw [raised (.packArg k false) (by rw [checkSlot, if_pos kind]), raise_packArg, if_neg Bool.false_ne_true, index]
    · rw [raised (.packRange k false) (by simp [checkSlot, kind, range]), raise_packRange, if_neg Bool.false_ne_true,
        index]
  · simp only [rangeOk, isInt, Bool.not_true, Bool.false_or, fits_iff, isSigned, if_true, Bool.false_eq_true, if_false,
      etypeSize, and_true]
    exact ⟨by omega, by omega, by omega, by omega⟩
  · cases v with
    | int i => exact absurd rfl (notInt i)
    | _ => cases sl <;> rfl

end Sys2Proof.Machine
end

section
/-! PROOFS. Decoding (40_field_codec.md rules R115 to R124, 30_encoding.md rule R83): the fixed decode inverts packing, how far
the dynamic decoder reads, and every way UNPACK_DYN can end. -/

namespace Sys2Proof.Machine

/-! ## A packed argument decoded -/

theorem decScalar_of_isInt (o : Order) (e : EType) (bs : List Byte) (h : isInt e = true) :
    decScalar o e bs = .int (if isSigned e then decS o bs else decU o bs) := by
  cases e with
  | bool => cases h
  | f32 => cases h
  | f64 => cases h
  | _ => rfl

/-- R116 undoes R113 on an argument that its slot accepts. -/
theorem decScalar_encSlot (o : Order) (e : EType) (v : Value) (h : slotAccepts (.elem e) v) :
    decScalar o e (encSlot o (.elem e) v) = v := by
  obtain ⟨kind, range⟩ := h
  obtain ⟨e', i, same, rfl, int⟩ | ⟨b, same, rfl⟩ | ⟨x, same, rfl⟩ | ⟨x, same, rfl⟩ | ⟨c, b, same, rfl⟩ :=
    (kindOk_iff _ v).mp kind <;> cases same
  · have integer : isInt e = true := by rw [isInt_eq_contains]; exact List.contains_iff_mem.mpr int
    have inRange : fits e i = true := by simpa [rangeOk, integer] using range
    rw [fits_iff] at inRange
    rw [decScalar_of_isInt o e _ integer, encSlot]
    split_ifs at inRange ⊢ with signed
    · rw [decS_enc_of_range o _ i (etypeSize_pos e) inRange.1 inRange.2]
    · rw [decU_enc, zext_of_range _ i inRange.1 inRange.2]
  · cases b <;> rfl
  · simp only [decScalar, encSlot, decU_enc, zext_natCast_of_lt _ _ x.isLt, BitVec.ofNat_toNat, BitVec.setWidth_eq]
  · simp only [decScalar, encSlot, decU_enc, zext_natCast_of_lt _ _ x.isLt, BitVec.ofNat_toNat, BitVec.setWidth_eq]

/-- The bytes that stand between others. -/
theorem memRead_append (pre bs rest : List Byte) : memRead (pre ++ (bs ++ rest)) pre.length bs.length = bs := by
  rw [memRead, List.drop_left, List.take_left]

/-- R82: the slots of SCALAR fields. -/
abbrev scalarSlots (fs : List Field) : List Slot := fs.map fun f => .elem f.etype

theorem flatMap_fieldSlots_of_scalar (fs : List Field) (scalar : ∀ f ∈ fs, f.shape = .scalar) :
    fs.flatMap fieldSlots = scalarSlots fs := by
  induction fs with
  | nil => rfl
  | cons f fs ih =>
    obtain ⟨hf, hfs⟩ := List.forall_mem_cons.mp scalar
    rw [List.flatMap_cons, ih hfs, fieldSlots, hf]
    rfl

theorem rxLength_of_scalar (d : Descr) (scalar : ∀ f ∈ d.fields, f.shape = .scalar) :
    rxLength d = ((scalarSlots d.fields).map slotSize).sum := by
  rw [rxLength, List.map_map]
  refine congrArg List.sum (List.map_congr_left fun f hf => ?_)
  rw [fieldMaxBytes, scalar f hf]
  rfl

/-- SCALAR fields read back, one after another, the arguments that stand encoded after other bytes. -/
theorem fixedFields_encSlots (o : Order) (pre : List Byte) (fs : List Field) (vs : List Value)
    (accepts : List.Forall₂ slotAccepts (scalarSlots fs) vs) :
    fixedFields o (pre ++ encSlots o (scalarSlots fs) vs) pre.length fs = vs := by
  induction fs generalizing pre vs with
  | nil =>
    cases accepts
    rfl
  | cons f fs ih =>
    obtain ⟨v, rest, first, others, rfl⟩ := List.forall₂_cons_left_iff.mp accepts
    have size : (encSlot o (.elem f.etype) v).length = etypeSize f.etype := encSlot_length o _ v first
    have bytes : encSlots o (scalarSlots (f :: fs)) (v :: rest) =
        encSlot o (.elem f.etype) v ++ encSlots o (scalarSlots fs) rest := rfl
    rw [fixedFields, bytes, ← size, memRead_append, decScalar_encSlot o _ v first, ← List.append_assoc,
      ← List.length_append, ih _ rest others]

theorem isVar_eq_false_iff (d : Descr) : isVar d = false ↔ ∀ f ∈ d.fields, f.shape = .scalar := by
  simp [isVar]

theorem assemble_ne_nil (d : Descr) : assemble d ≠ [] := List.cons_ne_nil _ _

/-- UNPACK of encoded arguments by SCALAR fields that accept them gives the arguments. -/
theorem exec_unpack_of_encoded (s : State) (d : Descr) (vs : List Value) (legal : d.wellFormed .rx = true)
    (scalar : ∀ f ∈ d.fields, f.shape = .scalar) (accepts : List.Forall₂ slotAccepts (scalarSlots d.fields) vs)
    (desc : s.ports.desc = assemble d) (din : s.ports.din = encSlots d.order (scalarSlots d.fields) vs) :
    exec .unpack s = .next { s with dout := [], vout := some vs, rdata := 0, status := 0, errInfo := 0 } := by
  have valid : validate .rx s.ports.desc = .ok d := (validate_iff .rx _ d).mpr ⟨desc, legal⟩
  have length : s.ports.din.length = rxLength d := by
    rw [din, encSlots_length _ _ _ accepts, rxLength_of_scalar d scalar]
  have values : fixedFields d.order s.ports.din 0 d.fields = vs := by
    rw [din]
    exact fixedFields_encSlots d.order [] d.fields vs accepts
  have body : unpackBody s.ports = .ok { vout := some vs } := by
    rw [unpackBody_of_valid _ d (desc ▸ assemble_ne_nil d) valid, (isVar_eq_false_iff d).mpr scalar]
    simp [decodeAs, fixedDecode, length, values]
  rw [exec_of_body_ok .unpack s _ rfl body, succeed_vout_only]

/-! ## The round trip -/

theorem foldOk_rx_of_tx (f : Field) (h : f.foldOk .tx = true) : f.foldOk .rx = true := by
  simp_all [Field.foldOk]

/-- A legal request descriptor is a legal response descriptor, with its command field or without it. -/
theorem wellFormed_rx_of_tx (d : Descr) (legal : d.wellFormed .tx = true) :
    d.wellFormed .rx = true ∧ Descr.wellFormed .rx ⟨d.order, d.fields.tail⟩ = true := by
  obtain ⟨length, -, fields, -, strings⟩ := (wellFormed_iff .tx d).mp legal
  have few : d.fields.length ≤ 255 := of_decide_eq_true length
  have legalRx (f : Field) (hf : f ∈ d.fields) : f.countOk = true ∧ f.stringOk = true ∧ f.foldOk .rx = true := by
    obtain ⟨count, string, fold⟩ := fields f hf
    exact ⟨count, string, foldOk_rx_of_tx f fold⟩
  have fewer : stringCount d.fields.tail ≤ stringCount d.fields :=
    ((List.tail_sublist d.fields).filter _).length_le
  refine ⟨(wellFormed_iff .rx d).mpr ⟨length, nofun, legalRx, nofun, strings⟩,
    (wellFormed_iff .rx _).mpr ⟨decide_eq_true ?_, nofun, fun f hf => legalRx f (List.mem_of_mem_tail hf), nofun, ?_⟩⟩
  · rw [List.length_tail]
    omega
  · dsimp only
    omega

/-- R90: a command id that PACK accepts is an argument that its field's slot accepts. -/
theorem slotAccepts_cmdid (e : EType) (cmdid : Nat) (command : e = .u8 ∨ e = .u16)
    (small : cmdid < 2 ^ (8 * etypeSize e)) : slotAccepts (.elem e) (.int cmdid) := by
  have small' : (cmdid : Int) < 2 ^ (8 * etypeSize e) := by exact_mod_cast small
  have range : fits e cmdid = true := by
    rw [fits_iff]
    obtain rfl | rfl := command <;> exact ⟨Int.natCast_nonneg _, small'⟩
  obtain rfl | rfl := command <;> exact ⟨rfl, by simpa [rangeOk] using .inr range⟩

/-- Settles O24: the command id is one more argument, encoded for the command field, and a SCALAR field reads back what its
slot encoded. -/
theorem unpackInvertsPack : Obligations.UnpackInvertsPack := by
  intro s t d args hd scalar flat run success
  obtain ⟨small, args', flat', accepts, dout, -⟩ := packed_of_exec_pack s t d hd run success
  obtain rfl : args' = args := Except.ok.inj (flat'.symm.trans flat)
  obtain ⟨desc, legal⟩ := (validate_iff .tx _ d).mp hd
  obtain ⟨legalRx, legalTail⟩ := wellFormed_rx_of_tx d legal
  obtain ⟨f, rest, fields, -, command⟩ := exists_command_of_valid _ d hd
  have width : cmdWidth d = etypeSize f.etype := by rw [cmdWidth, fields]
  have scalarTail : ∀ g ∈ d.fields.tail, g.shape = .scalar := fun g hg => scalar g (List.mem_of_mem_tail hg)
  have slotsEq : slots d = scalarSlots d.fields.tail := flatMap_fieldSlots_of_scalar _ scalarTail
  rw [packedRequest, slotsEq] at dout
  rw [slotsEq] at accepts
  refine ⟨exec_unpack_of_encoded _ d _ legalRx scalar ?_ desc ?_, fun u udesc udin =>
    exec_unpack_of_encoded u ⟨d.order, d.fields.tail⟩ args' legalTail scalarTail accepts udesc ?_⟩
  · rw [fields] at accepts ⊢
    exact .cons (slotAccepts_cmdid _ _ command (width ▸ small)) accepts
  · rw [withDin_ports, dout, fields, width]
    rfl
  · rw [udin, dout, List.drop_left' (enc_length _ _ _)]

/-! ## How far the dynamic decoder reads -/

/-- R83: a field takes at most the bytes that it adds to `rx_length`. -/
theorem dynField_cursor_le (o : Order) (bs : List Byte) (i c c' : Nat) (f : Field) (v : Value)
    (h : dynField o bs i c f = .ok (v, c')) : c' ≤ c + fieldMaxBytes f := by
  unfold fieldMaxBytes
  obtain ⟨-, -, hf⟩ | ⟨shape, -, hf⟩ | ⟨shape, hf⟩ | ⟨shape, hf⟩ := dynField_cases o bs i c f <;>
    cases h.symm.trans hf <;> simp only [shape]
  · exact le_rfl
  · obtain ⟨cursor, few⟩ := scanArray_cursor o f.etype bs f.count.toNat c
    rw [cursor]
    exact Nat.add_le_add_left (Nat.mul_le_mul_right _ few) c
  · obtain ⟨-, -, within⟩ := scanString_cursor bs f.count.toNat c
    exact within

theorem scanString_le_length (bs : List Byte) (count c : Nat) (hc : c ≤ bs.length) :
    (scanString bs count c).2 ≤ bs.length := by
  induction count generalizing c with
  | zero => exact hc
  | succ count ih =>
    rw [scanString]
    cases hb : bs[c]? with
    | none => exact hc
    | some b =>
      obtain ⟨inside, -⟩ := List.getElem?_eq_some_iff.mp hb
      simp only
      split_ifs
      · exact inside
      · exact ih (c + 1) inside

/-- The read cursor never leaves the data. -/
theorem dynField_cursor_le_length (o : Order) (bs : List Byte) (i c c' : Nat) (f : Field) (v : Value)
    (hc : c ≤ bs.length) (h : dynField o bs i c f = .ok (v, c')) : c' ≤ bs.length := by
  obtain ⟨-, -, hf⟩ | ⟨-, whole, hf⟩ | ⟨-, hf⟩ | ⟨-, hf⟩ := dynField_cases o bs i c f <;>
    cases h.symm.trans hf
  · exact whole
  · have whole := Nat.div_mul_le_self (bs.length - c) (etypeSize f.etype)
    have few := Nat.mul_le_mul_right (etypeSize f.etype)
      (Nat.min_le_right f.count.toNat ((bs.length - c) / etypeSize f.etype))
    simp only [scanArray_eq]
    omega
  · exact scanString_le_length bs _ c hc

/-- The walk from cursor `c` stops at a SCALAR that runs short, and the fields before it took at most their maximum. -/
theorem dynFields_error_bounds (o : Order) (bs : List Byte) (fs : List Field) (i c : Nat) (e : BlockError)
    (hc : c ≤ bs.length) (h : dynFields o bs i c fs = .error e) :
    ∃ k c' f, fs[k]? = some f ∧ f.shape = .scalar ∧ e = .decodeLen c' (BitVec.ofNat 8 (i + k)) ∧ c' ≤ bs.length ∧
      bs.length < c' + etypeSize f.etype ∧ c' ≤ c + ((fs.take k).map fieldMaxBytes).sum := by
  induction fs generalizing i c with
  | nil => cases h
  | cons f fs ih =>
    obtain stops | ⟨v, c', first, others⟩ := (dynFields_cons_error_iff o bs i c f fs e).mp h
    · obtain ⟨scalar, short, rfl⟩ := (dynField_error_iff o bs i c f e).mp stops
      exact ⟨0, c, f, rfl, scalar, rfl, hc, short, le_rfl⟩
    · obtain ⟨k, c'', g, hg, scalar, he, inside, short, cursor⟩ :=
        ih (i + 1) c' (dynField_cursor_le_length o bs i c c' f v hc first) others
      have step := dynField_cursor_le o bs i c c' f v first
      refine ⟨k + 1, c'', g, hg, scalar, ?_, inside, short, ?_⟩
      · rw [he, Nat.add_assoc, Nat.add_comm 1]
      · rw [List.take_succ_cons, List.map_cons, List.sum_cons]
        omega

/-- Settles O33: the walk from cursor 0. -/
theorem dynamicDecodeFailsOnlyOnShortScalar : Obligations.DynamicDecodeFailsOnlyOnShortScalar := by
  intro d bs e h
  obtain ⟨k, c, f, hf, scalar, he, inside, short, cursor⟩ :=
    dynFields_error_bounds d.order bs d.fields 0 0 e (Nat.zero_le _) h
  rw [Nat.zero_add] at he cursor
  exact ⟨k, c, f, hf, scalar, he, inside, short, cursor⟩

theorem memRead_take (bs : List Byte) (n c k : Nat) (h : c + k ≤ n) : memRead (bs.take n) c k = memRead bs c k := by
  rw [memRead, memRead, List.drop_take, List.take_take, Nat.min_eq_left (by omega)]

theorem le_length_take_iff (bs : List Byte) (n k : Nat) (h : k ≤ n) : k ≤ (bs.take n).length ↔ k ≤ bs.length := by
  rw [List.length_take]
  omega

theorem scanArray_take (o : Order) (e : EType) (bs : List Byte) (n count c : Nat) (h : c + count * etypeSize e ≤ n) :
    scanArray o e (bs.take n) count c = scanArray o e bs count c := by
  induction count generalizing c with
  | zero => rfl
  | succ count ih =>
    rw [Nat.succ_mul] at h
    rw [scanArray, scanArray, memRead_take _ _ _ _ (by omega), ih (c + etypeSize e) (by omega)]
    simp only [le_length_take_iff bs n (c + etypeSize e) (by omega)]

theorem scanString_take (bs : List Byte) (n count c : Nat) (h : c + count ≤ n) :
    scanString (bs.take n) count c = scanString bs count c := by
  have window : ((bs.take n).drop c).take count = (bs.drop c).take count := memRead_take bs n c count h
  rw [scanString_eq, scanString_eq, window]

/-- A field reads nothing past the bytes that it adds to `rx_length`. -/
theorem dynField_take (o : Order) (bs : List Byte) (n i c : Nat) (f : Field) (h : c + fieldMaxBytes f ≤ n) :
    dynField o (bs.take n) i c f = dynField o bs i c f := by
  unfold fieldMaxBytes at h
  unfold dynField
  cases shape : f.shape <;> simp only [shape] at h ⊢
  case scalar =>
    rw [memRead_take _ _ _ _ h]
    simp only [gt_iff_lt, ← not_le, le_length_take_iff bs n _ h]
  case array => rw [scanArray_take _ _ _ _ _ _ h]
  case string => rw [scanString_take _ _ _ _ h]

theorem dynFields_take (o : Order) (bs : List Byte) (n i c : Nat) (fs : List Field)
    (h : c + (fs.map fieldMaxBytes).sum ≤ n) : dynFields o (bs.take n) i c fs = dynFields o bs i c fs := by
  induction fs generalizing i c with
  | nil => rfl
  | cons f fs ih =>
    rw [List.map_cons, List.sum_cons] at h
    rw [dynFields, dynFields, dynField_take _ _ _ _ _ _ (by omega)]
    cases hf : dynField o bs i c f with
    | error e => rfl
    | ok r =>
      obtain ⟨v, c'⟩ := r
      have step := dynField_cursor_le o bs i c c' f v hf
      simp only [ih (i + 1) c' (by omega)]

/-- Settles O34: from cursor 0, the fields' maxima end at `rx_length`. -/
theorem rxLengthBoundsDynamicDecode : Obligations.RxLengthBoundsDynamicDecode := by
  intro d bs
  refine (dynFields_take d.order bs (rxLength d) 0 0 d.fields ?_).symm
  rw [Nat.zero_add, rxLength]

/-! ## The dynamic decode of enough bytes -/

/-- The maximum of a field stands in `rx_length` after those of the fields before it. -/
theorem sum_fieldMaxBytes_add_le_rxLength (d : Descr) (k : Nat) (hk : k < d.fields.length) :
    ((d.fields.take k).map fieldMaxBytes).sum + fieldMaxBytes d.fields[k] ≤ rxLength d := by
  have split : d.fields = d.fields.take k ++ d.fields[k] :: d.fields.drop (k + 1) := by
    rw [← List.drop_eq_getElem_cons hk, List.take_append_drop]
  have total : rxLength d = ((d.fields.take k).map fieldMaxBytes).sum +
      (fieldMaxBytes d.fields[k] + ((d.fields.drop (k + 1)).map fieldMaxBytes).sum) := by
    rw [rxLength, congrArg (List.map fieldMaxBytes) split, List.map_append, List.sum_append, List.map_cons, List.sum_cons]
  omega

/-- The walk does not stop where the data hold the maximum of every field. -/
theorem exists_dynDecode_ok (d : Descr) (bs : List Byte) (enough : rxLength d ≤ bs.length) :
    ∃ vs, dynDecode d bs = .ok vs ∧ vs.length = d.fields.length := by
  cases h : dynDecode d bs with
  | ok vs => exact ⟨vs, rfl, (((dynamicDecodeWalksCursor d bs).1 vs).mp h).1⟩
  | error e =>
    obtain ⟨k, c, f, hf, scalar, -, -, short, cursor⟩ := dynamicDecodeFailsOnlyOnShortScalar d bs e h
    obtain ⟨hk, rfl⟩ := List.getElem?_eq_some_iff.mp hf
    have size : fieldMaxBytes d.fields[k] = etypeSize d.fields[k].etype := by rw [fieldMaxBytes, scalar]
    have upTo := sum_fieldMaxBytes_add_le_rxLength d k hk
    omega

/-- On enough bytes, SCALAR fields decode as the fixed decode has them (R115, R117). -/
theorem dynFields_of_scalar (o : Order) (bs : List Byte) (i c : Nat) (fs : List Field)
    (scalar : ∀ f ∈ fs, f.shape = .scalar) (enough : c + (fs.map fieldMaxBytes).sum ≤ bs.length) :
    dynFields o bs i c fs = .ok (fixedFields o bs c fs) := by
  induction fs generalizing i c with
  | nil => rfl
  | cons f fs ih =>
    obtain ⟨hf, hfs⟩ := List.forall_mem_cons.mp scalar
    have size : fieldMaxBytes f = etypeSize f.etype := by rw [fieldMaxBytes, hf]
    rw [List.map_cons, List.sum_cons, size] at enough
    have whole : ¬ c + etypeSize f.etype > bs.length := by omega
    simp only [dynFields, dynField, hf, if_neg whole, ih (i + 1) (c + etypeSize f.etype) hfs (by omega), fixedFields]

/-- A fixed descriptor decodes the first `rx_length` bytes as UNPACK does. -/
theorem dynDecode_of_fixed (d : Descr) (bs : List Byte) (fixed : isVar d = false) (enough : rxLength d ≤ bs.length) :
    dynDecode d bs = .ok (fixedFields d.order (bs.take (rxLength d)) 0 d.fields) := by
  rw [rxLengthBoundsDynamicDecode d bs]
  refine dynFields_of_scalar d.order _ 0 0 d.fields ((isVar_eq_false_iff d).mp fixed) ?_
  rw [Nat.zero_add, List.length_take_of_le enough, rxLength]

/-! ## UNPACK_DYN -/

theorem unpackBody_of_absent (p : Ports) (absent : p.desc = []) : unpackBody p = .ok {} := by
  rw [unpackBody, if_pos (List.length_eq_zero_iff.mpr absent)]

theorem unpackDynBody_of_absent (p : Ports) (absent : p.desc = []) : unpackDynBody p = .ok {} := by
  rw [unpackDynBody, if_pos (List.length_eq_zero_iff.mpr absent)]

/-- R123: with a legal descriptor UNPACK_DYN comes to what the dynamic decoder makes of DIN. -/
theorem unpackDynBody_of_valid (p : Ports) (d : Descr) (hdesc : p.desc ≠ []) (hd : validate .rx p.desc = .ok d) :
    unpackDynBody p = decodeAs true d p.din := by
  rw [unpackDynBody, if_neg (mt List.length_eq_zero_iff.mp hdesc), hd]

theorem decodeAs_true_of_ok (d : Descr) (bs : List Byte) (vs : List Value) (h : dynDecode d bs = .ok vs) :
    decodeAs true d bs = .ok { vout := some vs, flags := { dyn := true } } := by
  rw [decodeAs, if_pos rfl, h]

theorem decodeAs_true_of_error (d : Descr) (bs : List Byte) (e : BlockError) (h : dynDecode d bs = .error e) :
    decodeAs true d bs = .error e := by
  rw [decodeAs, if_pos rfl, h]

theorem succeed_default (s : State) :
    s.succeed {} = { s with dout := [], vout := none, rdata := 0, status := 0, errInfo := 0 } :=
  succeed_dout_only s []

/-- A command that delivers the values of the dynamic decoder leaves DYN and no other flag in STATUS. -/
theorem succeed_dyn (s : State) (vs : List Value) :
    s.succeed { vout := some vs, flags := { dyn := true } } =
      { s with dout := [], vout := some vs, rdata := 0, status := 0x00000800, errInfo := 0 } := by
  have status : statusWord 0 { dyn := true } = 0x00000800 := by decide
  rw [State.succeed, status]

theorem decodeLen_info (pos : Nat) (field : Byte) :
    (BlockError.decodeLen pos field).info = BitVec.ofNat 32 (pos % 65536 + field.toNat * 65536) := by
  refine word_eq_ofNat _ _ ?_
  simp only [BlockError.info, toNat_append_eq_add, BitVec.toNat_ofNat]
  omega

/-- Settles O31: UNPACK_DYN ends as the dynamic decoder does, which does not fail on enough bytes. -/
theorem unpackDynCompletes : Obligations.UnpackDynCompletes := by
  intro s d hdesc hd
  have body := unpackDynBody_of_valid s.ports d hdesc hd
  have delivers (vs : List Value) (decoded : dynDecode d s.ports.din = .ok vs) :
      exec .unpackDyn s = .next { s with
        dout := [], vout := some vs, rdata := 0, status := 0x00000800, errInfo := 0 } := by
    rw [exec_of_body_ok .unpackDyn s _ rfl (body.trans (decodeAs_true_of_ok d _ vs decoded)), succeed_dyn]
  refine ⟨delivers, fun c f short => ⟨.decodeLen c f :: s.errLog, ?_⟩, fun enough => ?_⟩
  · rw [exec_of_raises .unpackDyn s _ (body.trans (decodeAs_true_of_error d _ _ short)), raise_decodeLen, decodeLen_info]
  · obtain ⟨vs, decoded, length⟩ := exists_dynDecode_ok d s.ports.din enough
    refine ⟨vs, decoded, delivers vs decoded, length, fun fixed => ?_⟩
    exact Except.ok.inj (decoded.symm.trans (dynDecode_of_fixed d _ fixed enough))

/-- Settles O32: the two commands' bodies are one where the descriptor is absent or variable. -/
theorem unpackChoosesDecoder : Obligations.UnpackChoosesDecoder := by
  refine ⟨fun s absent => ⟨?_, ?_⟩, fun s d hdesc hd hvar => ?_⟩
  · rw [exec_of_body_ok .unpack s _ rfl (unpackBody_of_absent s.ports absent), succeed_default]
  · rw [exec_of_body_ok .unpackDyn s _ rfl (unpackDynBody_of_absent s.ports absent), succeed_default]
  · rw [exec_eq_complete .unpack s rfl, exec_eq_complete .unpackDyn s rfl, bodyOf, bodyOf,
      unpackBody_of_valid s.ports d hdesc hd, unpackDynBody_of_valid s.ports d hdesc hd, hvar]

end Sys2Proof.Machine
end

section
/-! PROOFS. The checksum and the round trip of the framer (41_crc_framer.md rules R150, R151, R156, R157): the checksum is the
remainder of a division over GF(2), and deframing inverts framing and finds a wrong checksum byte. -/

namespace Sys2Proof.Machine

/-! ## Multiples of a polynomial over GF(2) -/

/-- One more term of a product: `x^k` times `g`, if the factor has that term. -/
def addTerm (q : BitVec 16) (g : BitVec 24) (acc : BitVec 24) (k : Nat) : BitVec 24 :=
  if q.getLsbD k then acc ^^^ (g <<< k) else acc

theorem polyMul_eq_foldl (q : BitVec 16) (g : BitVec 24) : polyMul q g = (List.range 16).foldl (addTerm q g) 0 := rfl

theorem addTerm_xor (p q : BitVec 16) (g a b : BitVec 24) (k : Nat) :
    addTerm (p ^^^ q) g (a ^^^ b) k = addTerm p g a k ^^^ addTerm q g b k := by
  have right (t : BitVec 24) : a ^^^ b ^^^ t = a ^^^ t ^^^ b := by ac_rfl
  have both (t : BitVec 24) : a ^^^ b = a ^^^ t ^^^ (b ^^^ t) := by
    rw [← BitVec.xor_assoc, BitVec.xor_assoc a t b, BitVec.xor_comm t b, ← BitVec.xor_assoc, BitVec.xor_assoc _ t t,
      BitVec.xor_self, BitVec.xor_zero]
  rw [addTerm, addTerm, addTerm, BitVec.getLsbD_xor]
  cases p.getLsbD k <;> cases q.getLsbD k
  · rfl
  · exact BitVec.xor_assoc a b _
  · exact right _
  · exact both _

theorem foldl_addTerm_xor (p q : BitVec 16) (g : BitVec 24) (ks : List Nat) (a b : BitVec 24) :
    ks.foldl (addTerm (p ^^^ q) g) (a ^^^ b) = ks.foldl (addTerm p g) a ^^^ ks.foldl (addTerm q g) b := by
  induction ks generalizing a b with
  | nil => rfl
  | cons k ks ih => rw [List.foldl_cons, addTerm_xor, ih, List.foldl_cons, List.foldl_cons]

/-- The product is linear in its first factor. -/
theorem polyMul_xor (p q : BitVec 16) (g : BitVec 24) : polyMul (p ^^^ q) g = polyMul p g ^^^ polyMul q g := by
  rw [polyMul_eq_foldl, polyMul_eq_foldl, polyMul_eq_foldl]
  exact foldl_addTerm_xor p q g (List.range 16) 0 0

theorem polyMul_zero (g : BitVec 24) : polyMul 0 g = 0 := by
  simp [polyMul, List.range_succ]

theorem polyMul_twoPow (g : BitVec 24) (k : Nat) (hk : k < 16) : polyMul (BitVec.twoPow 16 k) g = g <<< k := by
  interval_cases k <;> simp [polyMul, List.range_succ]

/-- The vectors that a polynomial of degree below 16 times `g` makes. -/
def IsMultiple (g v : BitVec 24) : Prop := ∃ q, v = polyMul q g

theorem IsMultiple.xor {g v w : BitVec 24} (hv : IsMultiple g v) (hw : IsMultiple g w) : IsMultiple g (v ^^^ w) := by
  obtain ⟨p, rfl⟩ := hv
  obtain ⟨q, rfl⟩ := hw
  exact ⟨p ^^^ q, (polyMul_xor p q g).symm⟩

theorem isMultiple_zero (g : BitVec 24) : IsMultiple g 0 := ⟨0, (polyMul_zero g).symm⟩

theorem isMultiple_shift (g : BitVec 24) (k : Nat) (hk : k < 16) : IsMultiple g (g <<< k) :=
  ⟨_, (polyMul_twoPow g k hk).symm⟩

/-- Two vectors differ by a multiple of `g`. -/
def CongruentMod (g v w : BitVec 24) : Prop := IsMultiple g (v ^^^ w)

theorem CongruentMod.trans {g u v w : BitVec 24} (huv : CongruentMod g u v) (hvw : CongruentMod g v w) :
    CongruentMod g u w := by
  have sum : u ^^^ v ^^^ (v ^^^ w) = u ^^^ w := by
    rw [← BitVec.xor_assoc, BitVec.xor_assoc u v v, BitVec.xor_self, BitVec.xor_zero]
  rw [CongruentMod, ← sum]
  exact IsMultiple.xor huv hvw

theorem CongruentMod.xor_right {g v w : BitVec 24} (h : CongruentMod g v w) (u : BitVec 24) :
    CongruentMod g (v ^^^ u) (w ^^^ u) := by
  have sum : v ^^^ u ^^^ (w ^^^ u) = v ^^^ w := by
    rw [BitVec.xor_comm w u, ← BitVec.xor_assoc, BitVec.xor_assoc v u u, BitVec.xor_self, BitVec.xor_zero]
  rw [CongruentMod, sum]
  exact h

/-! ## The checksum -/

/-- R151: the divisor `x^8 + POLY`. -/
def crcDivisor (poly : Byte) : BitVec 24 := 1#16 ++ poly

/-- One inner step multiplies the register by `x`, up to a multiple of the divisor, at every place `k` of the division. -/
theorem crcShift_one_congruent (poly r : Byte) (k : Nat) (hk : k < 16) :
    CongruentMod (crcDivisor poly) (r.setWidth 24 <<< (k + 1)) ((crcShift poly 1 r).setWidth 24 <<< k) := by
  have step : r.setWidth 24 <<< 1 =
      (if r.getLsbD 7 then crcDivisor poly else 0#24) ^^^ (crcShift poly 1 r).setWidth 24 :=
    crcShift_one_eq_mul_x poly r
  rw [CongruentMod, Nat.add_comm, BitVec.shiftLeft_add, step, BitVec.shiftLeft_xor_distrib, BitVec.xor_assoc,
    BitVec.xor_self, BitVec.xor_zero]
  split_ifs
  · exact isMultiple_shift _ k hk
  · rw [BitVec.zero_shiftLeft]
    exact isMultiple_zero _

theorem crcShift_succ (poly r : Byte) (n : Nat) : crcShift poly (n + 1) r = crcShift poly n (crcShift poly 1 r) := rfl

/-- `n` inner steps multiply the register by `x^n`. -/
theorem crcShift_congruent (poly r : Byte) (n m : Nat) (h : m + n ≤ 16) :
    CongruentMod (crcDivisor poly) (r.setWidth 24 <<< (m + n)) ((crcShift poly n r).setWidth 24 <<< m) := by
  induction n generalizing r with
  | zero =>
    rw [crcShift, Nat.add_zero, CongruentMod, BitVec.xor_self]
    exact isMultiple_zero _
  | succ n ih =>
    rw [crcShift_succ]
    exact (crcShift_one_congruent poly r (m + n) (by omega)).trans (ih (crcShift poly 1 r) (by omega))

/-- The message's polynomial, as its two bytes at their places. -/
theorem dividend_eq (a b : Byte) :
    (a ++ b ++ 0#8 : BitVec 24) = a.setWidth 24 <<< 16 ^^^ b.setWidth 24 <<< 8 := by
  refine BitVec.eq_of_getLsbD_eq fun i hi => ?_
  simp only [BitVec.getLsbD_xor, BitVec.getLsbD_append, BitVec.getLsbD_shiftLeft, BitVec.getLsbD_setWidth]
  interval_cases i <;> simp

/-- R151: the register after both message bytes is congruent to the message's polynomial. -/
theorem crcByte_congruent (poly init b0 b1 : Byte) :
    CongruentMod (crcDivisor poly) ((init ^^^ b0) ++ b1 ++ 0#8)
      ((crcByte poly (crcByte poly init b0) b1).setWidth 24) := by
  have first := (crcShift_congruent poly (init ^^^ b0) 8 8 (by decide)).xor_right (b1.setWidth 24 <<< 8)
  have second := crcShift_congruent poly (crcByte poly init b0 ^^^ b1) 8 0 (by decide)
  rw [← BitVec.shiftLeft_xor_distrib, ← BitVec.setWidth_xor] at first
  rw [BitVec.shiftLeft_zero] at second
  rw [dividend_eq]
  exact first.trans second

theorem crcShift_of_poly_zero (n : Nat) (r : Byte) : crcShift 0 n r = r <<< n := by
  induction n generalizing r with
  | zero => exact (BitVec.shiftLeft_zero r).symm
  | succ n ih =>
    have step : (if r.getLsbD 7 then (r <<< 1) ^^^ 0 else r <<< 1) = r <<< 1 := by
      split_ifs
      · exact BitVec.xor_zero
      · rfl
    rw [crcShift, step, ih, Nat.add_comm, BitVec.shiftLeft_add]

/-- R221: with POLY = 0 every message byte shifts the register empty. -/
theorem crc8_of_poly_zero (init xorOut a b : Byte) : crc8 0 init xorOut a b = xorOut := by
  rw [crc8, crcByte, crcShift_of_poly_zero, BitVec.shiftLeft_eq_zero le_rfl, BitVec.zero_xor]

/-- R151: the check value, by the sixteen inner steps. -/
theorem crc8_check_value : crc8 0x31 0xFF 0x00 0xBE 0xEF = 0x92 := by
  simp [crc8, crcByte, crcShift]

/-- Settles O36: the quotient of the division collects the divisors taken off at each inner step. -/
theorem crcOfPolyZeroIsXorOut : Obligations.CrcOfPolyZeroIsXorOut := by
  refine ⟨fun poly init xorOut b0 b1 => ?_, crc8_check_value, crc8_of_poly_zero⟩
  have checksum : crc8 poly init xorOut b0 b1 ^^^ xorOut = crcByte poly (crcByte poly init b0) b1 := by
    rw [crc8, BitVec.xor_assoc, BitVec.xor_self, BitVec.xor_zero]
  obtain ⟨q, difference⟩ := crcByte_congruent poly init b0 b1
  refine ⟨q, ?_⟩
  rw [checksum, ← crcDivisor, ← difference, BitVec.xor_assoc, BitVec.xor_self, BitVec.xor_zero]

/-! ## Deframing what was framed -/

/-- An even payload is what its pairs, framed, are deframed to (R156). -/
theorem deframeGroups_frameGroups (crc : Byte → Byte → Byte) (pos : Nat) (p : List Byte) (even : p.length % 2 = 0) :
    deframeGroups crc pos (frameGroups crc p) = .ok p := by
  induction p using frameGroups.induct generalizing pos with
  | case1 a b rest ih =>
    have others := ih (pos + 3) (by simp only [List.length_cons] at even; omega)
    rw [frameGroups, deframeGroups_cons_good _ _ _ _ _ _ rfl, others, Except.map]
  | case2 p short =>
    match p, short, even with
    | [], _, _ => rfl
    | a :: b :: rest, short, _ => exact absurd rfl (short a b rest)

theorem deframeBytes_frameGroups (crc : Byte → Byte → Byte) (p : List Byte) (even : p.length % 2 = 0) :
    deframeBytes (some crc) (frameGroups crc p) = .ok (p, p.isEmpty) := by
  have whole : ¬ (frameGroups crc p).length % 3 ≠ 0 := by
    rw [frameGroups_length]
    omega
  rw [deframeBytes, if_neg whole, deframeGroups_frameGroups crc 0 p even]

/-- Settles O41: the groups of an even payload are stripped again. -/
theorem framingRoundTripsForAnyFunction : Obligations.FramingRoundTripsForAnyFunction := by
  intro crc p even
  refine ⟨frameGroups crc p, ?_, frameGroups_length crc p, deframeBytes_frameGroups crc p even⟩
  simp [frameBytes, even]

/-- What FRAME leaves on DOUT of a header and an even payload (R152, R154). -/
def framedPayload (s : State) (p : List Byte) : List Byte :=
  if s.ctrl.getLsbD 0 then frameGroups s.crcFn p else p

/-- R154: without a checksum function, or with an even payload, the payload is framed after its header. -/
theorem frameBytes_payload (s : State) (hd p : List Byte) (fits : s.ctrl.getLsbD 0 = false ∨ p.length % 2 = 0) :
    frameBytes s.checksumFn hd.length (hd ++ p) = .ok (hd ++ framedPayload s p) := by
  have payload : (hd ++ p).length - hd.length = p.length := by rw [List.length_append, Nat.add_sub_cancel_left]
  rw [checksumFn_eq, framedPayload]
  cases on : s.ctrl.getLsbD 0 with
  | false => rfl
  | true =>
    have even : p.length % 2 = 0 := fits.resolve_left (by simp [on])
    have header : ¬ hd.length > (hd ++ p).length := by rw [List.length_append]; omega
    simp only [if_true, frameBytes, if_neg header, payload, even, ne_eq, not_true_eq_false, if_false, List.take_left,
      List.drop_left]

theorem frameBody_of_even (s : State) (h : Byte) (hd p : List Byte) (header : hd.length = h.toNat)
    (even : p.length % 2 = 0) :
    frameBody s.checksumFn h (hd ++ p) = .ok { dout := hd ++ framedPayload s p } := by
  rw [frameBody, ← header, frameBytes_payload s hd p (.inr even)]

theorem deframeBytes_framedPayload (s : State) (p : List Byte) (fits : s.ctrl.getLsbD 0 = false ∨ p.length % 2 = 0) :
    deframeBytes s.checksumFn (framedPayload s p) = .ok (p, s.ctrl.getLsbD 0 && p.isEmpty) := by
  rw [checksumFn_eq, framedPayload]
  cases on : s.ctrl.getLsbD 0 with
  | false => rfl
  | true => exact deframeBytes_frameGroups s.crcFn p (fits.resolve_left (by simp [on]))

theorem deframeBody_framedPayload (s : State) (p : List Byte) (even : p.length % 2 = 0) :
    deframeBody s.checksumFn (framedPayload s p) =
      .ok { dout := p, flags := { nodata := s.ctrl.getLsbD 0 && p.isEmpty } } := by
  rw [deframeBody, deframeBytes_framedPayload s p (.inr even)]

/-- Settles O39: FRAME leaves the framed payload after the header, and DEFRAME strips it again. -/
theorem deframeInvertsFrame : Obligations.DeframeInvertsFrame := by
  intro h s t hd p din header even run
  have framed : bodyOf s (.frame h) = .ok { dout := hd ++ framedPayload s p } := by
    rw [bodyOf, din]
    exact frameBody_of_even s h hd p header even
  obtain rfl := Host.Outcome.next.inj ((exec_of_body_ok (.frame h) s _ rfl framed).symm.trans run)
  refine ⟨statusErr_statusWord _ _, ?_⟩
  rw [succeed_dout, List.drop_left' header]
  have deframed : bodyOf (s.withDin (framedPayload s p)) .deframe =
      .ok { dout := p, flags := { nodata := s.ctrl.getLsbD 0 && p.isEmpty } } :=
    deframeBody_framedPayload s p even
  rw [exec_of_body_ok .deframe _ _ rfl deframed, succeed_dout_nodata]
  simp only [Bool.and_eq_true, List.isEmpty_iff]

/-! ## A wrong checksum byte -/

/-- The groups of a frame have their own checksum bytes. -/
theorem groupGood_frameGroups (crc : Byte → Byte → Byte) (p : List Byte) (j : Nat) (hj : j < p.length / 2) :
    groupGood crc (frameGroups crc p) j := by
  obtain ⟨first, second, check⟩ := frameGroups_getElem? crc p j _ _
    (List.getElem?_eq_getElem (by omega)) (List.getElem?_eq_getElem (by omega))
  simp only [groupGood, List.getD_eq_getElem?_getD, first, second, check, Option.getD_some]

/-- A change of one byte leaves the groups before that byte's as they are. -/
theorem groupGood_set (crc : Byte → Byte → Byte) (bs : List Byte) (n j : Nat) (b : Byte) (hj : 3 * j + 2 < n)
    (good : groupGood crc bs j) : groupGood crc (bs.set n b) j := by
  have same (i : Nat) (hi : i < n) : (bs.set n b).getD i 0 = bs.getD i 0 := by
    rw [List.getD_eq_getElem?_getD, List.getD_eq_getElem?_getD, List.getElem?_set_ne (by omega)]
  rw [groupGood, same _ hj, same _ (by omega), same _ (by omega)]
  exact good

/-- The walk over the groups of a frame stops at the one changed checksum byte. -/
theorem deframeGroups_of_corrupted (crc : Byte → Byte → Byte) (p : List Byte) (k : Nat) (good bad : Byte)
    (hgood : (frameGroups crc p)[3 * k + 2]? = some good) (wrong : bad ≠ good) :
    deframeGroups crc 0 ((frameGroups crc p).set (3 * k + 2) bad) = .error (.checksum bad good (3 * k + 2)) := by
  have length := frameGroups_length crc p
  obtain ⟨inside, -⟩ := List.getElem?_eq_some_iff.mp hgood
  obtain ⟨first, second, check⟩ := frameGroups_getElem? crc p k _ _
    (List.getElem?_eq_getElem (by omega)) (List.getElem?_eq_getElem (by omega))
  obtain rfl := Option.some.inj (check.symm.trans hgood)
  have stops := deframeGroups_of_firstBad crc 0 ((frameGroups crc p).set (3 * k + 2) bad) k _ _ bad
    (fun j hj => groupGood_set _ _ _ j bad (by omega) (groupGood_frameGroups _ _ j (by omega)))
    (by rw [List.getElem?_set_ne (by omega), first]) (by rw [List.getElem?_set_ne (by omega), second])
    (List.getElem?_set_self inside) wrong
  rwa [Nat.zero_add] at stops

theorem exec_deframe_of_badGroup (s : State) (e : BlockError) (on : s.ctrl.getLsbD 0 = true)
    (whole : s.ports.din.length % 3 = 0) (bad : deframeGroups s.crcFn 0 s.ports.din = .error e) :
    exec .deframe s = .next (s.raise e) := by
  have body : deframeBody s.checksumFn s.ports.din = .error e := by
    rw [checksumFn_of_crcOn s on, deframeBody_of_groups _ _ whole, bad, Except.map]
  exact exec_of_raises .deframe s e body

/-- Settles O40: the groups before the changed byte are good, and the byte it replaces is the one expected. -/
theorem corruptedChecksumDetected : Obligations.CorruptedChecksumDetected := by
  intro s t k good bad on even run hgood wrong
  have framed : bodyOf s (.frame 0) = .ok { dout := frameGroups s.crcFn s.ports.din } := by
    have body := frameBody_of_even s 0 [] s.ports.din rfl even
    rwa [framedPayload, if_pos on] at body
  have dout : t.dout = frameGroups s.crcFn s.ports.din := by
    rw [← Host.Outcome.next.inj ((exec_of_body_ok (.frame 0) s _ rfl framed).symm.trans run), succeed_dout]
  have whole : (t.dout.set (3 * k + 2) bad).length % 3 = 0 := by
    rw [List.length_set, dout, frameGroups_length]
    omega
  rw [dout] at hgood
  have stops := deframeGroups_of_corrupted s.crcFn s.ports.din k good bad hgood wrong
  rw [← dout] at stops
  rw [exec_deframe_of_badGroup (s.withDin (t.dout.set (3 * k + 2) bad)) _ on whole stops, raise_checksum]
  rfl

end Sys2Proof.Machine
end

section
/-! PROOFS. The transfer paths (42_transfer_paths.md rules R181, R182): I2C_TX is PACK and FRAME, I2C_RX is DEFRAME and
UNPACK, and the requests and responses with which they complete. -/

namespace Sys2Proof.Machine

/-! ## I2C_TX -/

/-- R90: a request that is packed has a command id of one or two bytes. -/
theorem packRequest_width (p : Ports) (r : Packed) (h : packRequest p = .ok r) : r.width = 1 ∨ r.width = 2 := by
  cases hd : validate .tx p.desc with
  | error e => cases (packRequest_of_malformed p e hd).symm.trans h
  | ok d =>
    obtain ⟨-, args, -, -, rfl⟩ := (packArgs_eq_ok_iff d _ _ r).mp ((packRequest_of_valid p d hd).symm.trans h)
    exact cmdWidth_of_valid _ d hd

theorem i2cTxBody_of_unpacked (fn : Option (Byte → Byte → Byte)) (p : Ports) (e : BlockError)
    (h : packRequest p = .error e) : i2cTxBody fn p = .error e := by
  rw [i2cTxBody, h]

theorem i2cTxBody_of_framed (fn : Option (Byte → Byte → Byte)) (p : Ports) (r : Packed) (out : List Byte)
    (h : packRequest p = .ok r) (framed : frameBytes fn r.width r.bytes = .ok out) :
    i2cTxBody fn p = .ok { dout := out, rdata := BitVec.ofNat 32 r.width, flags := { trunc := r.trunc } } := by
  simp only [i2cTxBody, h, framed]

theorem i2cTxBody_of_unframed (fn : Option (Byte → Byte → Byte)) (p : Ports) (r : Packed) (e : BlockError)
    (h : packRequest p = .ok r) (refused : frameBytes fn r.width r.bytes = .error e) : i2cTxBody fn p = .error e := by
  simp only [i2cTxBody, h, refused]

theorem frameBody_of_ok (fn : Option (Byte → Byte → Byte)) (h : Byte) (din out : List Byte)
    (framed : frameBytes fn h.toNat din = .ok out) : frameBody fn h din = .ok { dout := out } := by
  rw [frameBody, framed]

theorem frameBody_of_error (fn : Option (Byte → Byte → Byte)) (h : Byte) (din : List Byte) (e : BlockError)
    (refused : frameBytes fn h.toNat din = .error e) : frameBody fn h din = .error e := by
  rw [frameBody, refused]

/-- Framing is refused only with FRAME_LEN (R249). -/
theorem frameBytes_error (fn : Option (Byte → Byte → Byte)) (h : Nat) (bs : List Byte) (e : BlockError)
    (refused : frameBytes fn h bs = .error e) : e = .frameLen bs.length h := by
  obtain ⟨-, run⟩ | ⟨-, -, -, run⟩ | ⟨_, -, -, -, run⟩ := frameBytes_cases fn h bs <;> cases run.symm.trans refused
  rfl

theorem eq_of_exec_body_ok {i : Instr} {s t : State} {o : Output} (other : isRegAccess i = false)
    (body : bodyOf s i = .ok o) (run : exec i s = .next t) : t = s.succeed o :=
  (Host.Outcome.next.inj ((exec_of_body_ok i s o other body).symm.trans run)).symm

theorem eq_of_exec_raises {i : Instr} {s t : State} {e : BlockError} (raises : Raises s i e)
    (run : exec i s = .next t) : t = s.raise e :=
  (Host.Outcome.next.inj ((exec_of_raises i s e raises).symm.trans run)).symm

theorem statusErr_raise_ne_zero (s : State) (e : BlockError) : statusErr (s.raise e).status ≠ 0 := by
  rw [raise_status, statusErr_statusWord]
  exact code_ne_zero e

theorem statusErr_succeed (s : State) (o : Output) : statusErr (s.succeed o).status = 0 :=
  statusErr_statusWord 0 o.flags

/-- Settles O43: both begin with the packed request, and both frame its bytes after the command id. -/
theorem i2cTxIsPackThenFrame : Obligations.I2cTxIsPackThenFrame := by
  intro s p pack
  cases hr : packRequest s.ports with
  | error e =>
    obtain rfl := eq_of_exec_raises (i := .pack) (packBody_of_error _ e hr) pack
    refine ⟨fun _ => ?_, fun success => absurd success (statusErr_raise_ne_zero s e)⟩
    exact exec_of_raises .i2cTx s e (i2cTxBody_of_unpacked _ _ e hr)
  | ok r =>
    obtain rfl := eq_of_exec_body_ok (i := .pack) rfl (packBody_of_ok _ r hr) pack
    refine ⟨fun fails => absurd (statusErr_succeed s _) fails, fun _ h f width frame => ?_⟩
    have header : h.toNat = r.width := by
      have value := congrArg BitVec.toNat width
      have narrow := packRequest_width _ r hr
      rw [succeed_rdata, BitVec.toNat_setWidth_of_le (by decide), BitVec.toNat_ofNat] at value
      omega
    cases hf : frameBytes s.checksumFn r.width r.bytes with
    | error e =>
      obtain rfl := eq_of_exec_raises (i := .frame h) (frameBody_of_error _ h _ e (header ▸ hf)) frame
      obtain rfl := frameBytes_error _ _ _ e hf
      refine ⟨fun success => absurd success (statusErr_raise_ne_zero _ _), fun _ => ?_⟩
      exact exec_of_raises .i2cTx s _ (i2cTxBody_of_unframed _ _ r _ hr hf)
    | ok out =>
      obtain rfl := eq_of_exec_body_ok (i := .frame h) rfl (frameBody_of_ok _ h _ out (header ▸ hf)) frame
      refine ⟨fun _ => ?_, fun fails => absurd (statusErr_succeed _ _) fails⟩
      exact exec_of_body_ok .i2cTx s _ rfl (i2cTxBody_of_framed _ _ r out hr hf)

/-- Settles O44: the command id is the header and the arguments are the payload. -/
theorem i2cTxCompletes : Obligations.I2cTxCompletes := by
  intro s d args hd small flat accepts fits
  have packed := (packRequest_of_valid s.ports d hd).trans
    ((packArgs_eq_ok_iff d _ _ _).mpr ⟨small, args, flat, accepts, rfl⟩)
  have header : (enc d.order (cmdWidth d) s.ports.cmdid).length = cmdWidth d := enc_length _ _ _
  have framed : frameBytes s.checksumFn (cmdWidth d) (packedRequest d s.ports.cmdid args).bytes =
      .ok (enc d.order (cmdWidth d) s.ports.cmdid ++ framedPayload s (encSlots d.order (slots d) args)) := by
    have payload := frameBytes_payload s (enc d.order (cmdWidth d) s.ports.cmdid) (encSlots d.order (slots d) args)
      (by rwa [encSlots_length _ _ _ accepts])
    rwa [header] at payload
  obtain ⟨either, trunc⟩ := truncStatus_iff (slots d) args
  refine ⟨_ ++ framedPayload s (encSlots d.order (slots d) args), _, ?_, either, trunc, List.take_left' header,
    fun off => ?_, fun on => ?_⟩
  · rw [exec_of_body_ok .i2cTx s _ rfl (i2cTxBody_of_framed _ _ _ _ packed framed), succeed_packed]
    rfl
  · rw [List.drop_left' header, framedPayload, off]
    rfl
  · rw [List.drop_left' header, framedPayload, on]
    rfl

/-! ## I2C_RX -/

theorem optDescr_of_valid (desc : List Byte) (d : Descr) (present : desc ≠ []) (hd : validate .rx desc = .ok d) :
    optDescr desc = .ok (some d) := by
  rw [optDescr, if_neg (mt List.length_eq_zero_iff.mp present), hd]

/-- A descriptor that is absent or legal is read without error. -/
theorem exists_optDescr_ok (desc : List Byte) (h : desc = [] ∨ ∃ d, validate .rx desc = .ok d) :
    ∃ d, optDescr desc = .ok d := by
  obtain ⟨-, hd⟩ | ⟨present, e, bad, -⟩ | ⟨-, d, -, hd⟩ := optDescr_cases desc
  · exact ⟨none, hd⟩
  · obtain absent | ⟨d, valid⟩ := h
    · exact absurd absent present
    · cases valid.symm.trans bad
  · exact ⟨some d, hd⟩

/-- R122, R123, R182: nothing without a descriptor, and otherwise the values by the decoder that `dyn` chooses. -/
def optDecode (dyn : Descr → Bool) (d : Option Descr) (bs : List Byte) : Except BlockError Output :=
  d.elim (.ok {}) fun d => decodeAs (dyn d) d bs

theorem unpackBody_eq_optDecode (p : Ports) (d : Option Descr) (h : optDescr p.desc = .ok d) :
    unpackBody p = optDecode isVar d p.din := by
  obtain ⟨absent, hd⟩ | ⟨-, e, -, hd⟩ | ⟨present, d', valid, hd⟩ := optDescr_cases p.desc <;> cases hd.symm.trans h
  · exact unpackBody_of_absent p absent
  · exact unpackBody_of_valid p d' present valid

theorem unpackDynBody_eq_optDecode (p : Ports) (d : Option Descr) (h : optDescr p.desc = .ok d) :
    unpackDynBody p = optDecode (fun _ => true) d p.din := by
  obtain ⟨absent, hd⟩ | ⟨-, e, -, hd⟩ | ⟨present, d', valid, hd⟩ := optDescr_cases p.desc <;> cases hd.symm.trans h
  · exact unpackDynBody_of_absent p absent
  · exact unpackDynBody_of_valid p d' present valid

theorem fixedDecode_error (d : Descr) (bs : List Byte) (e : BlockError) (h : fixedDecode d bs = .error e) :
    e = .decodeLen bs.length 0xFF := by
  unfold fixedDecode at h
  split_ifs at h
  exact (Except.error.inj h).symm

/-- A decode fails only with DECODE_LEN (R251). -/
theorem decodeAs_error (dyn : Bool) (d : Descr) (bs : List Byte) (e : BlockError) (h : decodeAs dyn d bs = .error e) :
    ∃ c f, e = .decodeLen c f := by
  obtain ⟨e', decoder, run⟩ | ⟨vs, -, run⟩ := decodeAs_cases dyn d bs <;> cases run.symm.trans h
  cases dyn with
  | false => exact ⟨_, _, fixedDecode_error d bs e decoder⟩
  | true => exact dynFields_error _ _ _ _ _ e decoder

theorem optDecode_error (dyn : Descr → Bool) (d : Option Descr) (bs : List Byte) (e : BlockError)
    (h : optDecode dyn d bs = .error e) : ∃ c f, e = .decodeLen c f := by
  cases d with
  | none => cases h
  | some d => exact decodeAs_error (dyn d) d bs e h

theorem i2cRxBody_of_undeframed (fn : Option (Byte → Byte → Byte)) (p : Ports) (d : Option Descr) (e : BlockError)
    (hd : optDescr p.desc = .ok d) (bad : deframeBytes fn p.din = .error e) : i2cRxBody fn p = .error e := by
  simp only [i2cRxBody, hd, bad]

theorem i2cRxBody_of_deframed (fn : Option (Byte → Byte → Byte)) (p : Ports) (d : Option Descr) (data : List Byte)
    (nodata : Bool) (hd : optDescr p.desc = .ok d) (deframed : deframeBytes fn p.din = .ok (data, nodata)) :
    i2cRxBody fn p = i2cDecode d data nodata := by
  simp only [i2cRxBody, hd, deframed]

theorem deframeBody_of_error (fn : Option (Byte → Byte → Byte)) (din : List Byte) (e : BlockError)
    (bad : deframeBytes fn din = .error e) : deframeBody fn din = .error e := by
  rw [deframeBody, bad]

theorem deframeBody_of_ok (fn : Option (Byte → Byte → Byte)) (din data : List Byte) (nodata : Bool)
    (deframed : deframeBytes fn din = .ok (data, nodata)) :
    deframeBody fn din = .ok { dout := data, flags := { nodata := nodata } } := by
  rw [deframeBody, deframed]

/-- R155, R182: the "no data" result is not decoded. -/
theorem i2cDecode_of_nodata (d : Option Descr) (data : List Byte) :
    i2cDecode d data true = .ok { dout := data, flags := { nodata := true } } := by
  cases d <;> rfl

/-- R182: data are decoded as UNPACK decodes them, and go to DOUT. -/
theorem i2cDecode_of_data (d : Option Descr) (data : List Byte) :
    i2cDecode d data false = (optDecode isVar d data).map fun o => { o with dout := data } := by
  cases d with
  | none => rfl
  | some d =>
    simp only [i2cDecode, Bool.false_eq_true, if_false, optDecode, Option.elim]
    cases decodeAs (isVar d) d data <;> rfl

/-- Settles O45: both begin with the deframed bytes, and both decode them by the same descriptor. -/
theorem i2cRxIsDeframeThenUnpack : Obligations.I2cRxIsDeframeThenUnpack := by
  intro s f legal deframe
  obtain ⟨d, hd⟩ := exists_optDescr_ok s.ports.desc legal
  cases hb : deframeBytes s.checksumFn s.ports.din with
  | error e =>
    obtain rfl := eq_of_exec_raises (i := .deframe) (deframeBody_of_error _ _ e hb) deframe
    refine ⟨fun _ => ?_, fun success => absurd success (statusErr_raise_ne_zero s e)⟩
    exact exec_of_raises .i2cRx s e (i2cRxBody_of_undeframed _ _ d e hd hb)
  | ok result =>
    obtain ⟨data, nodata⟩ := result
    obtain rfl := eq_of_exec_body_ok (i := .deframe) rfl (deframeBody_of_ok _ _ data nodata hb) deframe
    have body := i2cRxBody_of_deframed _ s.ports d data nodata hd hb
    rw [succeed_status, statusNodata_statusWord, statusErr_statusWord]
    dsimp only
    cases nodata with
    | true =>
      refine ⟨fun _ => ?_, fun _ hasData => by cases hasData⟩
      exact exec_of_body_ok .i2cRx s _ rfl (body.trans (i2cDecode_of_nodata d data))
    | false =>
      refine ⟨fun stops => by simp at stops, fun _ _ u unpack => ?_⟩
      have decode : unpackBody (s.withDin data).ports = optDecode isVar d data := unpackBody_eq_optDecode _ d hd
      rw [i2cDecode_of_data] at body
      cases hu : unpackBody (s.withDin data).ports with
      | error e =>
        obtain rfl := eq_of_exec_raises (i := .unpack) hu unpack
        obtain ⟨c, g, rfl⟩ := optDecode_error _ d data e (decode.symm.trans hu)
        rw [decode.symm.trans hu] at body
        rw [if_neg (statusErr_raise_ne_zero _ _), exec_of_raises .i2cRx s _ body]
        rfl
      | ok o =>
        obtain rfl := eq_of_exec_body_ok (i := .unpack) rfl hu unpack
        rw [decode.symm.trans hu] at body
        rw [if_pos (statusErr_succeed _ o), exec_of_body_ok .i2cRx s _ rfl body]
        rfl

/-- Settles O46: the data are the payload of their frame, and of the length that the fixed decode asks for. -/
theorem i2cRxDecodesFramedResponse : Obligations.I2cRxDecodesFramedResponse := by
  intro s d data hdesc hd fixed length hasData framed
  have payload : s.ports.din = framedPayload s data ∧ (s.ctrl.getLsbD 0 = false ∨ data.length % 2 = 0) := by
    obtain ⟨on, even, din⟩ | ⟨off, din⟩ := framed
    · exact ⟨by rw [din, framedPayload, if_pos on], .inr even⟩
    · exact ⟨by rw [din, framedPayload, off, if_neg Bool.false_ne_true], .inl off⟩
  obtain ⟨din, fits⟩ := payload
  have deframed : deframeBytes s.checksumFn s.ports.din = .ok (data, false) := by
    rw [din, deframeBytes_framedPayload s data fits, List.isEmpty_eq_false_iff.mpr hasData, Bool.and_false]
  have decoded : decodeAs (isVar d) d data = .ok { vout := some (fixedFields d.order data 0 d.fields) } := by
    simp [fixed, decodeAs, fixedDecode, length]
  have body : i2cRxBody s.checksumFn s.ports =
      .ok { dout := data, vout := some (fixedFields d.order data 0 d.fields) } := by
    rw [i2cRxBody_of_deframed _ _ _ data false (optDescr_of_valid _ d hdesc hd) deframed, i2cDecode_of_data, optDecode,
      Option.elim, decoded, Except.map]
  have status : statusWord 0 {} = 0 := by decide
  rw [exec_of_body_ok .i2cRx s _ rfl body, State.succeed, status]

end Sys2Proof.Machine
end

section
/-! PROOFS. SHDLC_RX (43_shdlc.md rule R202): it is SHDLC_CHECK and UNPACK_DYN, and the responses with which it completes. -/

namespace Sys2Proof.Machine

theorem shdlcCheckBody_of_error (p : Ports) (e : BlockError) (h : shdlcError p = some e) : shdlcCheckBody p = .error e := by
  rw [shdlcCheckBody, h]

theorem shdlcCheckBody_of_none (p : Ports) (h : shdlcError p = none) :
    shdlcCheckBody p = .ok { dout := p.din, flags := { devstate := p.es.getLsbD 7 } } := by
  rw [shdlcCheckBody, h]

theorem shdlcRxBody_of_error (p : Ports) (d : Option Descr) (e : BlockError) (hd : optDescr p.desc = .ok d)
    (h : shdlcError p = some e) : shdlcRxBody p = .error e := by
  simp only [shdlcRxBody, hd, h]

/-- R202: a response that passes the checks is decoded as UNPACK_DYN decodes it, with the data and DEVSTATE beside. -/
theorem shdlcRxBody_of_none (p : Ports) (d : Option Descr) (hd : optDescr p.desc = .ok d) (h : shdlcError p = none) :
    shdlcRxBody p = (optDecode (fun _ => true) d p.din).map fun o =>
      { o with dout := p.din, flags := { devstate := p.es.getLsbD 7, dyn := d.isSome } } := by
  cases d with
  | none => simp only [shdlcRxBody, hd, h]; rfl
  | some d =>
    simp only [shdlcRxBody, hd, h, optDecode, Option.elim, decodeAs, if_true, Option.isSome]
    cases dynDecode d p.din <;> rfl

/-- The dynamic decoder sets no flag but DYN, and that one exactly with a descriptor. -/
theorem optDecode_dyn_ok (d : Option Descr) (bs : List Byte) (o : Output)
    (h : optDecode (fun _ => true) d bs = .ok o) :
    ∃ vout, o = { vout := vout, flags := { dyn := d.isSome } } := by
  cases d with
  | none => exact ⟨none, (Except.ok.inj h).symm⟩
  | some d =>
    obtain ⟨e, -, run⟩ | ⟨vs, -, run⟩ := decodeAs_cases true d bs <;> cases run.symm.trans h
    exact ⟨some vs, rfl⟩

/-- R26: the flags of two words that both report success, together. -/
theorem statusWord_devstate_or_dyn (devstate dyn : Bool) :
    statusWord 0 { devstate := devstate } ||| statusWord 0 { dyn := dyn } =
      statusWord 0 { devstate := devstate, dyn := dyn } := by
  cases devstate <;> cases dyn <;> decide

/-- Settles O48: the check first, then the one decoder. -/
theorem shdlcRxIsCheckThenUnpackDyn : Obligations.ShdlcRxIsCheckThenUnpackDyn := by
  intro s c u legal check unpack
  obtain ⟨d, hd⟩ := exists_optDescr_ok s.ports.desc legal
  have decode := unpackDynBody_eq_optDecode s.ports d hd
  cases he : shdlcError s.ports with
  | some e =>
    obtain rfl := eq_of_exec_raises (i := .shdlcCheck) (shdlcCheckBody_of_error _ e he) check
    have fails := statusErr_raise_ne_zero s e
    exact ⟨fun _ => exec_of_raises .shdlcRx s e (shdlcRxBody_of_error _ d e hd he), fun success => absurd success fails,
      fun success => absurd success fails⟩
  | none =>
    obtain rfl := eq_of_exec_body_ok (i := .shdlcCheck) rfl (shdlcCheckBody_of_none _ he) check
    have passes := statusErr_succeed s { dout := s.ports.din, flags := { devstate := s.ports.es.getLsbD 7 } }
    have body := shdlcRxBody_of_none s.ports d hd he
    cases hu : optDecode (fun _ => true) d s.ports.din with
    | error e =>
      rw [hu] at body decode
      obtain rfl := eq_of_exec_raises (i := .unpackDyn) decode unpack
      exact ⟨fun fails => absurd passes fails, fun _ _ => exec_of_raises .shdlcRx s e body,
        fun _ success => absurd success (statusErr_raise_ne_zero s e)⟩
    | ok o =>
      obtain ⟨vout, rfl⟩ := optDecode_dyn_ok d s.ports.din o hu
      rw [hu] at body decode
      obtain rfl := eq_of_exec_body_ok (i := .unpackDyn) rfl decode unpack
      refine ⟨fun fails => absurd passes fails, fun _ fails => absurd (statusErr_succeed s _) fails, fun _ _ => ?_⟩
      rw [exec_of_body_ok .shdlcRx s _ rfl body, succeed_status, succeed_status, statusWord_devstate_or_dyn]
      rfl

/-- A response that is decoded leaves DYN, and DEVSTATE by the top bit of its status byte, in STATUS (R26, R202). -/
theorem succeed_decoded_response (s : State) (vs : List Value) :
    s.succeed { dout := s.ports.din, vout := some vs, flags := { devstate := s.ports.es.getLsbD 7, dyn := true } } =
      { s with
        dout := s.ports.din, vout := some vs, rdata := 0, errInfo := 0
        status := if 128 ≤ s.ports.es.toNat then 0x00000C00 else 0x00000800 } := by
  have status : statusWord 0 { devstate := s.ports.es.getLsbD 7, dyn := true } =
      if 128 ≤ s.ports.es.toNat then 0x00000C00 else 0x00000800 := by
    simp only [← typeBits_reserved_iff]
    cases s.ports.es.getLsbD 7 <;> decide
  rw [State.succeed, status]

/-- Settles O49: no check fails, so the response ends as the dynamic decoder does. -/
theorem shdlcRxCompletes : Obligations.ShdlcRxCompletes := by
  intro s d addr cmd code hdesc hd
  have passes := (shdlcError_of_match s.ports addr cmd).trans (if_neg (not_not.mpr code))
  have body := shdlcRxBody_of_none s.ports (some d) (optDescr_of_valid _ d hdesc hd) passes
  rw [optDecode, Option.elim] at body
  have delivers (vs : List Value) (decoded : dynDecode d s.ports.din = .ok vs) :
      exec .shdlcRx s = .next { s with
        dout := s.ports.din, vout := some vs, rdata := 0, errInfo := 0
        status := if 128 ≤ s.ports.es.toNat then 0x00000C00 else 0x00000800 } := by
    rw [decodeAs_true_of_ok d _ vs decoded] at body
    rw [exec_of_body_ok .shdlcRx s _ rfl body]
    exact congrArg Host.Outcome.next (succeed_decoded_response s vs)
  refine ⟨delivers, fun c f short => ⟨.decodeLen c f :: s.errLog, ?_⟩, fun enough => ?_⟩
  · rw [decodeAs_true_of_error d _ _ short] at body
    rw [exec_of_raises .shdlcRx s _ body, raise_decodeLen, decodeLen_info]
  · obtain ⟨vs, decoded, length⟩ := exists_dynDecode_ok d s.ports.din enough
    exact ⟨vs, decoded, delivers vs decoded, length⟩

end Sys2Proof.Machine
end

section
/-! PROOFS. Register writes (44_register_access.md rule R221, 30_encoding.md rule R95, 70_reset_and_hazards.md rule R273): what
a write keeps of its value, the pseudo-instructions, and the checksum parameters that the next command sees. -/

namespace Sys2Proof.Machine

/-! ## The value that a register keeps -/

theorem ctrl_write_eq (v : Word) : v &&& 0x00000001 = BitVec.ofNat 32 (v.toNat % 2) := by
  refine word_eq_ofNat _ _ ?_
  rw [BitVec.toNat_and]
  exact Nat.and_two_pow_sub_one_eq_mod v.toNat 1

theorem crcCfg_write_toNat (v : Word) :
    (0x08000000 ||| (v &&& 0x00FFFFFF) : Word).toNat = 0x08000000 + v.toNat % 0x1000000 := by
  have low : v.toNat &&& 0x00FFFFFF = v.toNat % 2 ^ 24 := Nat.and_two_pow_sub_one_eq_mod v.toNat 24
  have sum := Nat.two_pow_add_eq_or_of_lt (i := 27) (b := v.toNat % 2 ^ 24) (by omega) 1
  rw [Nat.mul_one] at sum
  rw [BitVec.toNat_or, BitVec.toNat_and]
  change 2 ^ 27 ||| (v.toNat &&& 0x00FFFFFF) = 2 ^ 27 + v.toNat % 2 ^ 24
  rw [low, ← sum]

/-- R25: each parameter of the checksum stands where the value written has it. -/
theorem crcCfg_write_field (v : Word) (start : Nat) (h : start ≤ 16) :
    (0x08000000 ||| (v &&& 0x00FFFFFF) : Word).extractLsb' start 8 = v.extractLsb' start 8 := by
  apply BitVec.eq_of_toNat_eq
  simp only [BitVec.extractLsb'_toNat, crcCfg_write_toNat, Nat.shiftRight_eq_div_pow]
  interval_cases start <;> omega

/-- R25, R221: the state after a write of CRC_CFG has the checksum function of the value written. -/
theorem crcFn_of_crcCfg_write (s : State) (v : Word) :
    (s.writeReg .crcCfg v).crcFn = crc8 (v.extractLsb' 0 8) (v.extractLsb' 8 8) (v.extractLsb' 16 8) := by
  rw [State.crcFn, State.poly, State.init, State.xorOut, writeReg_crcCfg, if_pos rfl, crcCfg_write_field v 0 (by decide),
    crcCfg_write_field v 8 (by decide), crcCfg_write_field v 16 (by decide)]

/-- Settles O51: one clause for each register, one for the unmapped addresses, and the checksum function after a write of
CRC_CFG. -/
theorem wrregWritesRegister : Obligations.WrregWritesRegister := by
  intro addr s
  refine ⟨?ctrl, ?crcCfg, ?readOnly, fun h => ⟨.illegalReg addr true :: s.errLog, ?unmapped⟩, fun t run a b => ?checksum⟩
  case ctrl =>
    rintro rfl
    rw [exec_wrreg_of_mapped 0 .ctrl s rfl, ← ctrl_write_eq]
    rfl
  case crcCfg =>
    rintro rfl
    rw [exec_wrreg_of_mapped 1 .crcCfg s rfl, ← word_eq_ofNat _ _ (crcCfg_write_toNat s.ports.wdata)]
    rfl
  case readOnly =>
    rintro (rfl | rfl)
    · exact exec_wrreg_of_mapped 2 .status s rfl
    · exact exec_wrreg_of_mapped 3 .errInfo s rfl
  case unmapped =>
    rw [exec_of_raises (.wrreg addr) s (.illegalReg addr true) ⟨regAt_of_unmapped addr h, rfl⟩, raise_illegalReg]
    rfl
  case checksum =>
    obtain rfl := Host.Outcome.next.inj ((exec_wrreg_of_mapped 1 .crcCfg s rfl).symm.trans run)
    have checksum : ((s.writeReg .crcCfg s.ports.wdata).respond 0).crcFn = _ := crcFn_of_crcCfg_write s s.ports.wdata
    rw [checksum]
    exact ⟨rfl, fun zero => by rw [zero]; exact crc8_of_poly_zero _ _ a b⟩

/-! ## The pseudo-instructions -/

/-- R95: the command a pseudo-instruction stands for. -/
def pseudoInstr : Pseudo → Instr
  | .crcOn => .wrreg 0
  | .crcOff => .wrreg 0
  | .crcSet _ _ _ => .wrreg 1
  | .rdStatus => .rdreg 2
  | .rdErr => .rdreg 3

theorem expandPseudo_cmd (x : Pseudo) : (expandPseudo x).cmd = encode (pseudoInstr x) := by cases x <;> rfl

theorem expandPseudo_din (x : Pseudo) : (expandPseudo x).din = [] := by cases x <;> rfl

theorem expandPseudo_desc (x : Pseudo) : (expandPseudo x).desc = [] := by cases x <;> rfl

/-- A pseudo-instruction, issued, runs its command: its ports are empty and its word is legal. -/
theorem step_pseudo (s : State) (x : Pseudo) (rest : List HostEvent)
    (queue : s.hostQueue = .issue (expandPseudo x) :: rest) :
    step s = exec (pseudoInstr x) { s with ports := expandPseudo x, hostQueue := rest } := by
  refine stepRunsDecodedCommand s (expandPseudo x) rest (pseudoInstr x) queue ?_ ?_ ?_
  · rw [expandPseudo_din]
    exact Nat.zero_le _
  · rw [expandPseudo_desc]
    exact Nat.zero_le _
  · rw [expandPseudo_cmd, decodeWord_encode]

theorem toNat_setWidth_shiftLeft (b : Byte) (k : Nat) (hk : k ≤ 24) : (b.setWidth 32 <<< k).toNat = 2 ^ k * b.toNat := by
  have bound : b.toNat * 2 ^ k < 2 ^ 8 * 2 ^ 24 :=
    Nat.mul_lt_mul_of_lt_of_le b.isLt (Nat.pow_le_pow_right (by decide) hk) (by decide)
  rw [BitVec.toNat_shiftLeft, BitVec.toNat_setWidth_of_le (by decide), Nat.shiftLeft_eq,
    Nat.mod_eq_of_lt (bound.trans_eq (by norm_num)), Nat.mul_comm]

/-- R95: the operand of CRCSET, in numbers. -/
theorem crcSet_wdata_toNat (poly init xorOut : Byte) :
    (expandPseudo (.crcSet poly init xorOut)).wdata.toNat = xorOut.toNat * 65536 + init.toNat * 256 + poly.toNat := by
  have low := poly.isLt
  have mid := init.isLt
  have high : 2 ^ 16 * xorOut.toNat ||| 2 ^ 8 * init.toNat = 2 ^ 8 * (2 ^ 8 * xorOut.toNat + init.toNat) := by
    rw [← Nat.two_pow_add_eq_or_of_lt (by omega)]
    omega
  simp only [expandPseudo, BitVec.toNat_or]
  rw [toNat_setWidth_shiftLeft _ 16 (by decide), toNat_setWidth_shiftLeft _ 8 (by decide),
    BitVec.toNat_setWidth_of_le (by decide), high, ← Nat.two_pow_add_eq_or_of_lt low]
  omega

theorem crcSet_wdata_fields (poly init xorOut : Byte) :
    (expandPseudo (.crcSet poly init xorOut)).wdata.extractLsb' 0 8 = poly ∧
      (expandPseudo (.crcSet poly init xorOut)).wdata.extractLsb' 8 8 = init ∧
      (expandPseudo (.crcSet poly init xorOut)).wdata.extractLsb' 16 8 = xorOut := by
  have low := poly.isLt
  have mid := init.isLt
  have high := xorOut.isLt
  simp only [BitVec.toNat_eq, BitVec.extractLsb'_toNat, crcSet_wdata_toNat, Nat.shiftRight_eq_div_pow]
  omega

/-- What CRCSET leaves in CRC_CFG (R25, R95). -/
theorem crcSet_crcCfg_toNat (s : State) (poly init xorOut : Byte) :
    (s.writeReg .crcCfg (expandPseudo (.crcSet poly init xorOut)).wdata).crcCfg.toNat =
      0x08000000 + xorOut.toNat * 65536 + init.toNat * 256 + poly.toNat := by
  have low := poly.isLt
  have mid := init.isLt
  have high := xorOut.isLt
  rw [writeReg_crcCfg, if_pos rfl, crcCfg_write_toNat, crcSet_wdata_toNat]
  omega

/-- Settles O53: each pseudo-instruction runs a register access, which writes no other register. -/
theorem pseudoInstructionsTakeEffect : Obligations.PseudoInstructionsTakeEffect := by
  intro s x rest queue
  have run := step_pseudo s x rest queue
  have bit0Set : (1 : Word) &&& 0x00000001 = 1 := by decide
  have bit0Clear : (0 : Word) &&& 0x00000001 = 0 := by decide
  cases x with
  | crcOn =>
    exact ⟨_, run.trans (exec_wrreg_of_mapped 0 .ctrl _ rfl), rfl, rfl, rfl, rfl, nofun, fun _ => ⟨bit0Set, rfl⟩, nofun,
      nofun, nofun⟩
  | crcOff =>
    exact ⟨_, run.trans (exec_wrreg_of_mapped 0 .ctrl _ rfl), rfl, rfl, rfl, rfl, nofun, nofun, fun _ => ⟨bit0Clear, rfl⟩,
      nofun, nofun⟩
  | crcSet poly init xorOut =>
    refine ⟨_, run.trans (exec_wrreg_of_mapped 1 .crcCfg _ rfl), rfl, rfl, rfl, rfl, ?_, nofun, nofun, nofun, nofun⟩
    rintro _ _ _ ⟨⟩
    exact ⟨rfl, crcSet_crcCfg_toNat s poly init xorOut⟩
  | rdStatus =>
    exact ⟨_, run.trans (exec_rdreg_of_mapped 2 .status _ rfl), rfl, rfl, rfl, rfl, nofun, nofun, nofun,
      fun _ => ⟨rfl, rfl, rfl⟩, nofun⟩
  | rdErr =>
    exact ⟨_, run.trans (exec_rdreg_of_mapped 3 .errInfo _ rfl), rfl, rfl, rfl, rfl, nofun, nofun, nofun, nofun,
      fun _ => ⟨rfl, rfl, rfl⟩⟩

/-- A CRCCALC of two bytes, issued, answers with the checksum function of the state it finds. -/
theorem step_crccalc (s : State) (p : Ports) (rest : List HostEvent) (a b : Byte) (cmd : p.cmd = encode .crccalc)
    (din : p.din = [a, b]) (desc : p.desc = []) (room : 2 ≤ s.config.maxLen.toNat)
    (queue : s.hostQueue = .issue p :: rest) :
    step s = .next (State.succeed { s with ports := p, hostQueue := rest } { rdata := (s.crcFn a b).setWidth 32 }) := by
  have run := stepRunsDecodedCommand s p rest .crccalc queue (by rw [din]; exact room) (by rw [desc]; exact Nat.zero_le _)
    (by rw [cmd, decodeWord_encode])
  have body : crccalcBody s.crcFn p.din = .ok { rdata := (s.crcFn a b).setWidth 32 } := by rw [din, crccalcBody]
  exact run.trans (exec_of_body_ok .crccalc _ _ rfl body)

/-- Settles O52: CRCSET leaves its parameters in CRC_CFG, from which the next step's CRCCALC takes its function. -/
theorem nextCommandSeesRegisterWrite : Obligations.NextCommandSeesRegisterWrite := by
  intro s t u poly init xorOut a b p rest cmd din desc room queue first second
  have write := (step_pseudo s _ _ queue).trans (exec_wrreg_of_mapped 1 .crcCfg _ rfl)
  have t_eq := Host.Outcome.next.inj (first.symm.trans write)
  have checksum : t.crcFn = crc8 poly init xorOut := by
    obtain ⟨hpoly, hinit, hxorOut⟩ := crcSet_wdata_fields poly init xorOut
    have written := crcFn_of_crcCfg_write s (expandPseudo (.crcSet poly init xorOut)).wdata
    rw [hpoly, hinit, hxorOut] at written
    rw [t_eq]
    exact written
  have crcCfg : t.crcCfg.toNat = 0x08000000 + xorOut.toNat * 65536 + init.toNat * 256 + poly.toNat := by
    rw [t_eq]
    exact crcSet_crcCfg_toNat s poly init xorOut
  have ctrl : t.ctrl = s.ctrl := by rw [t_eq]; rfl
  have nextRoom : 2 ≤ t.config.maxLen.toNat := by rw [t_eq]; exact room
  have nextQueue : t.hostQueue = .issue p :: rest := by rw [t_eq]; rfl
  have read := step_crccalc t p rest a b cmd din desc nextRoom nextQueue
  rw [Host.Outcome.next.inj (second.symm.trans read)]
  exact ⟨by rw [succeed_rdata, checksum], crcCfg, ctrl⟩

end Sys2Proof.Machine
end

section
/-! PROOFS. The errors of each command (60_exceptions.md rules R241, R255): the codes that each shared operation can fail with,
the codes of each command, and what an error writes. -/

namespace Sys2Proof.Machine

/-! ## The codes that each operation can fail with -/

theorem validate_error_code (use : Use) (bytes : List Byte) (e : BlockError) (h : validate use bytes = .error e) :
    e.code = 0x05 := by
  obtain ⟨cause, field, rfl⟩ := validate_error use bytes e h
  rfl

theorem optDescr_error_code (desc : List Byte) (e : BlockError) (h : optDescr desc = .error e) : e.code = 0x05 := by
  obtain ⟨-, run⟩ | ⟨-, e', bad, run⟩ | ⟨-, d, -, run⟩ := optDescr_cases desc <;> cases run.symm.trans h
  exact validate_error_code .rx desc e bad

theorem spliceList_error_code (k : Nat) (xs : List Value) (e : BlockError) (h : spliceList k xs = .error e) :
    e.code = 0x15 := by
  induction xs generalizing k with
  | nil => cases h
  | cons x xs ih =>
    cases hx : isListValue x with
    | true =>
      cases x with
      | list ys =>
        obtain rfl := Except.error.inj h
        rfl
      | _ => cases hx
    | false =>
      rw [spliceList_cons_of_not_list k x xs hx] at h
      cases hr : spliceList (k + 1) xs with
      | error e' =>
        rw [hr] at h
        obtain rfl := Except.error.inj h
        exact ih (k + 1) hr
      | ok a =>
        rw [hr] at h
        cases h

theorem flattenFrom_error_code (k : Nat) (vin : List Value) (e : BlockError) (h : flattenFrom k vin = .error e) :
    e.code = 0x15 := by
  induction k, vin using flattenFrom.induct with
  | case1 => cases h
  | case2 k xs vs e' bad =>
    rw [flattenFrom, bad] at h
    exact spliceList_error_code k xs.toList e (bad.trans h)
  | case3 k xs vs a good e' bad ih =>
    simp only [flattenFrom, good, bad] at h
    exact ih (bad.trans h)
  | case4 k xs vs a good b others ih => simp [flattenFrom, good, others] at h
  | case5 k v vs notList e' bad ih =>
    rw [flattenFrom, bad] at h
    · exact ih (bad.trans h)
    · exact notList
  | case6 k v vs notList b others ih =>
    rw [flattenFrom, others] at h
    · cases h
    · exact notList

theorem checkSlots_error_code (k : Nat) (ss : List Slot) (vs : List Value) (e : BlockError)
    (h : checkSlots k ss vs = some e) : e.code = 0x15 ∨ e.code = 0x16 := by
  induction k, ss, vs using checkSlots.induct with
  | case1 k sl ss v vs e' bad =>
    simp only [checkSlots, bad] at h
    obtain rfl := Option.some.inj h
    unfold checkSlot at bad
    split_ifs at bad <;> obtain rfl := Option.some.inj bad
    · exact .inl rfl
    · exact .inr rfl
  | case2 k sl ss v vs good ih =>
    simp only [checkSlots, good] at h
    exact ih h
  | case3 k ss vs short =>
    rw [checkSlots] at h
    · cases h
    · exact short

theorem packRequest_error_code (p : Ports) (e : BlockError) (h : packRequest p = .error e) :
    e.code ∈ ([0x05, 0x15, 0x16] : List Byte) := by
  cases hd : validate .tx p.desc with
  | error e' =>
    cases (packRequest_of_malformed p e' hd).symm.trans h
    simp [validate_error_code .tx p.desc e hd]
  | ok d =>
    have packed := (packRequest_of_valid p d hd).symm.trans h
    obtain ⟨-, run⟩ | ⟨-, ⟨e', bad, run⟩ | ⟨args, -, ⟨-, run⟩ | ⟨-, ⟨e', bad, run⟩ | ⟨-, run⟩⟩⟩⟩ :=
      packArgs_cases d p.cmdid p.vin <;> cases run.symm.trans packed
    · decide
    · simp [flattenFrom_error_code 0 p.vin e bad]
    · simp [BlockError.code]
    · obtain code | code := checkSlots_error_code 0 _ args e bad <;> simp [code]

theorem deframeGroups_error_code (crc : Byte → Byte → Byte) (pos : Nat) (bs : List Byte) (e : BlockError)
    (h : deframeGroups crc pos bs = .error e) : e.code = 0x01 := by
  induction pos, bs using deframeGroups.induct (crc := crc) with
  | case1 pos a b c rest bad =>
    rw [deframeGroups, if_pos bad] at h
    obtain rfl := Except.error.inj h
    rfl
  | case2 pos a b c rest good e' bad ih =>
    rw [deframeGroups, if_neg good, bad] at h
    exact ih (bad.trans h)
  | case3 pos a b c rest good out others ih =>
    rw [deframeGroups, if_neg good, others] at h
    cases h
  | case4 pos bs short =>
    rw [deframeGroups] at h
    · cases h
    · exact short

theorem deframeBytes_error_code (fn : Option (Byte → Byte → Byte)) (bs : List Byte) (e : BlockError)
    (h : deframeBytes fn bs = .error e) : e.code ∈ ([0x01, 0x13] : List Byte) := by
  obtain ⟨-, run⟩ | ⟨-, -, -, run⟩ | ⟨crc, e', -, -, bad, run⟩ | ⟨_, out, -, -, -, run⟩ := deframeBytes_cases fn bs <;>
    cases run.symm.trans h
  · simp [BlockError.code]
  · simp [deframeGroups_error_code crc 0 bs e bad]

theorem shdlcError_code (p : Ports) (e : BlockError) (h : shdlcError p = some e) :
    e.code ∈ ([0x02, 0x03, 0x04] : List Byte) := by
  obtain ⟨-, run⟩ | ⟨-, -, run⟩ | ⟨-, -, -, run⟩ | ⟨-, -, -, run⟩ := shdlcError_cases p <;> cases run.symm.trans h
  · simp [BlockError.code]
  · simp [BlockError.code]
  · simp [BlockError.code]

theorem optDecode_error_code (dyn : Descr → Bool) (d : Option Descr) (bs : List Byte) (e : BlockError)
    (h : optDecode dyn d bs = .error e) : e.code = 0x14 := by
  obtain ⟨c, f, rfl⟩ := optDecode_error dyn d bs e h
  rfl

/-! ## The codes of each command -/

theorem crccalcBody_error_code (crc : Byte → Byte → Byte) (din : List Byte) (e : BlockError)
    (h : crccalcBody crc din = .error e) : e.code = 0x12 := by
  unfold crccalcBody at h
  split at h
  · cases h
  · obtain rfl := Except.error.inj h
    rfl

theorem frameBody_error_code (fn : Option (Byte → Byte → Byte)) (h : Byte) (din : List Byte) (e : BlockError)
    (fails : frameBody fn h din = .error e) : e.code = 0x12 := by
  cases hf : frameBytes fn h.toNat din with
  | error e' =>
    cases (frameBody_of_error fn h din e' hf).symm.trans fails
    obtain rfl := frameBytes_error fn h.toNat din e hf
    rfl
  | ok out => cases (frameBody_of_ok fn h din out hf).symm.trans fails

theorem deframeBody_error_code (fn : Option (Byte → Byte → Byte)) (din : List Byte) (e : BlockError)
    (h : deframeBody fn din = .error e) : e.code ∈ ([0x01, 0x13] : List Byte) := by
  cases hb : deframeBytes fn din with
  | error e' =>
    cases (deframeBody_of_error fn din e' hb).symm.trans h
    exact deframeBytes_error_code fn din e hb
  | ok r => cases (deframeBody_of_ok fn din r.1 r.2 hb).symm.trans h

theorem packBody_error_code (p : Ports) (e : BlockError) (h : packBody p = .error e) :
    e.code ∈ ([0x05, 0x15, 0x16] : List Byte) := by
  cases hr : packRequest p with
  | error e' =>
    cases (packBody_of_error p e' hr).symm.trans h
    exact packRequest_error_code p e hr
  | ok r => cases (packBody_of_ok p r hr).symm.trans h

theorem i2cTxBody_error_code (fn : Option (Byte → Byte → Byte)) (p : Ports) (e : BlockError)
    (h : i2cTxBody fn p = .error e) : e.code ∈ ([0x05, 0x15, 0x16, 0x12] : List Byte) := by
  cases hr : packRequest p with
  | error e' =>
    cases (i2cTxBody_of_unpacked fn p e' hr).symm.trans h
    exact List.mem_append_left [0x12] (packRequest_error_code p e hr)
  | ok r =>
    cases hf : frameBytes fn r.width r.bytes with
    | error e' =>
      cases (i2cTxBody_of_unframed fn p r e' hr hf).symm.trans h
      obtain rfl := frameBytes_error fn r.width r.bytes e hf
      simp [BlockError.code]
    | ok out => cases (i2cTxBody_of_framed fn p r out hr hf).symm.trans h

theorem shdlcCheckBody_error_iff (p : Ports) (e : BlockError) : shdlcCheckBody p = .error e ↔ shdlcError p = some e := by
  cases he : shdlcError p with
  | some e' => simp [shdlcCheckBody_of_error p e' he]
  | none => simp [shdlcCheckBody_of_none p he]

/-- A command that reads DESC as a response comes to the error of a descriptor that cannot be read. -/
theorem bodyOf_of_optDescr_error (i : Instr) (s : State) (e : BlockError)
    (reads : i ∈ [Instr.rxlen, .unpack, .unpackDyn, .shdlcRx, .i2cRx]) (h : optDescr s.ports.desc = .error e) :
    bodyOf s i = .error e := by
  obtain ⟨-, run⟩ | ⟨present, e', bad, run⟩ | ⟨-, d, -, run⟩ := optDescr_cases s.ports.desc <;> cases run.symm.trans h
  exact bodyOf_of_malformed_rx i s e present reads bad

/-- A command that reads DESC as a response fails with USAGE, or with an error of what it makes of the descriptor. -/
theorem code_of_reads_desc (i : Instr) (s : State) (e : BlockError) (codes : List Byte)
    (reads : i ∈ [Instr.rxlen, .unpack, .unpackDyn, .shdlcRx, .i2cRx]) (h : bodyOf s i = .error e)
    (legal : ∀ d, optDescr s.ports.desc = .ok d → e.code ∈ codes) : e.code ∈ 0x05 :: codes := by
  cases hd : optDescr s.ports.desc with
  | error e' =>
    cases (bodyOf_of_optDescr_error i s e' reads hd).symm.trans h
    rw [optDescr_error_code _ e hd]
    exact List.mem_cons_self
  | ok d => exact List.mem_cons_of_mem _ (legal d hd)

theorem rxlenBody_error_code (crcEn : Bool) (p : Ports) (d : Option Descr) (e : BlockError)
    (hd : optDescr p.desc = .ok d) (h : rxlenBody crcEn p = .error e) : e.code = 0x17 := by
  obtain ⟨absent, -⟩ | ⟨-, e', -, run⟩ | ⟨present, d', valid, -⟩ := optDescr_cases p.desc
  · cases (rxlenBody_of_absent crcEn p absent).symm.trans h
  · cases run.symm.trans hd
  · rw [rxlenBody_of_valid crcEn p d' present valid] at h
    split_ifs at h
    obtain rfl := Except.error.inj h
    rfl

theorem shdlcRxBody_error_cases (p : Ports) (d : Option Descr) (e : BlockError) (hd : optDescr p.desc = .ok d)
    (h : shdlcRxBody p = .error e) : shdlcError p = some e ∨ e.code = 0x14 := by
  cases he : shdlcError p with
  | some e' =>
    cases (shdlcRxBody_of_error p d e' hd he).symm.trans h
    exact .inl rfl
  | none =>
    rw [shdlcRxBody_of_none p d hd he] at h
    cases hu : optDecode (fun _ => true) d p.din with
    | error e' =>
      rw [hu] at h
      cases h
      exact .inr (optDecode_error_code _ d p.din e hu)
    | ok o =>
      rw [hu] at h
      cases h

theorem i2cRxBody_error_code (fn : Option (Byte → Byte → Byte)) (p : Ports) (d : Option Descr) (e : BlockError)
    (hd : optDescr p.desc = .ok d) (h : i2cRxBody fn p = .error e) : e.code ∈ ([0x13, 0x01, 0x14] : List Byte) := by
  cases hb : deframeBytes fn p.din with
  | error e' =>
    cases (i2cRxBody_of_undeframed fn p d e' hd hb).symm.trans h
    have code := deframeBytes_error_code fn p.din e hb
    simp only [List.mem_cons, List.not_mem_nil, or_false] at code ⊢
    tauto
  | ok r =>
    obtain ⟨data, nodata⟩ := r
    rw [i2cRxBody_of_deframed fn p d data nodata hd hb] at h
    cases nodata with
    | true => cases (i2cDecode_of_nodata d data).symm.trans h
    | false =>
      rw [i2cDecode_of_data] at h
      cases hu : optDecode isVar d data with
      | error e' =>
        rw [hu] at h
        cases h
        simp [optDecode_error_code isVar d data e hu]
      | ok o =>
        rw [hu] at h
        cases h

/-- R241: the table's column "raised by". -/
theorem raises_code (s : State) (i : Instr) (e : BlockError) (h : Raises s i e) : e.code ∈ raisableCodes i := by
  cases i with
  | crccalc => exact List.mem_singleton.mpr (crccalcBody_error_code _ _ e h)
  | frame hlen => exact List.mem_singleton.mpr (frameBody_error_code _ hlen _ e h)
  | deframe => exact deframeBody_error_code _ _ e h
  | rxlen =>
    exact code_of_reads_desc .rxlen s e [0x17] (by decide) h fun d hd =>
      List.mem_singleton.mpr (rxlenBody_error_code _ _ d e hd h)
  | pack => exact packBody_error_code _ e h
  | unpack =>
    exact code_of_reads_desc .unpack s e [0x14] (by decide) h fun d hd =>
      List.mem_singleton.mpr (optDecode_error_code _ d _ e ((unpackBody_eq_optDecode _ d hd).symm.trans h))
  | unpackDyn =>
    exact code_of_reads_desc .unpackDyn s e [0x14] (by decide) h fun d hd =>
      List.mem_singleton.mpr (optDecode_error_code _ d _ e ((unpackDynBody_eq_optDecode _ d hd).symm.trans h))
  | shdlcCheck => exact shdlcError_code _ e ((shdlcCheckBody_error_iff _ e).mp h)
  | shdlcRx =>
    refine code_of_reads_desc .shdlcRx s e [0x02, 0x03, 0x04, 0x14] (by decide) h fun d hd => ?_
    obtain check | code := shdlcRxBody_error_cases _ d e hd h
    · exact List.mem_append_left [0x14] (shdlcError_code _ e check)
    · simp [code]
  | i2cTx => exact i2cTxBody_error_code _ _ e h
  | i2cRx =>
    exact code_of_reads_desc .i2cRx s e [0x13, 0x01, 0x14] (by decide) h fun d hd => i2cRxBody_error_code _ _ d e hd h
  | rdreg addr =>
    obtain ⟨-, rfl⟩ := h
    exact List.mem_singleton.mpr rfl
  | wrreg addr =>
    obtain ⟨-, rfl⟩ := h
    exact List.mem_singleton.mpr rfl

/-- Settles O56: the log grows only where the command raises, and STATUS shows the code. -/
theorem errorsRaisedByCommand : Obligations.ErrorsRaisedByCommand := by
  intro i s t h
  cases endsIn_of_exec i s t h with
  | delivers o other body => exact .inl rfl
  | fails e raises => exact .inr ⟨e, rfl, raises_code s i e raises, statusErr_statusWord _ _⟩
  | reads addr r rdreg mapped => exact .inl rfl
  | writes addr r wrreg mapped => exact .inl (writeReg_errLog s r _)

/-! ## What an error writes -/

theorem statusWord_of_no_flags (err : Byte) : statusWord err {} = err.setWidth 32 ||| 0 := by
  refine Eq.trans (BitVec.eq_of_toNat_eq ?_) BitVec.or_zero.symm
  rw [BitVec.toNat_setWidth_of_le (by decide)]
  simp only [statusWord, toNat_append_eq_add, BitVec.toNat_ofBool, BitVec.toNat_ofNat, Bool.toNat_false]
  omega

theorem statusWord_of_device (devstate : Bool) :
    statusWord 0x04 { devstate := devstate } =
      (0x04 : Byte).setWidth 32 ||| if devstate then 0x00000400 else 0 := by
  cases devstate <;> decide

/-- Settles O55: an error adds itself to the log, and only DEVICE leaves a flag. -/
theorem errorWritesOnlyResults : Obligations.ErrorWritesOnlyResults := by
  intro i s t h
  cases endsIn_of_exec i s t h with
  | delivers o other body => exact ⟨fun _ _ => ⟨statusErr_succeed s o, rfl⟩, fun changed => absurd rfl changed⟩
  | reads addr r rdreg mapped =>
    subst rdreg
    exact ⟨fun _ other => (by cases other), fun changed => absurd rfl changed⟩
  | writes addr r wrreg mapped =>
    subst wrreg
    exact ⟨fun _ other => (by cases other), fun changed => absurd (writeReg_errLog s r _) changed⟩
  | fails e raises =>
    refine ⟨fun same => absurd same (List.cons_ne_self e s.errLog), fun _ => ⟨e, ?_⟩⟩
    cases e with
    | device es => simp only [State.raise, BlockError.code, BlockError.flags, statusWord_of_device]
    | _ => simp only [State.raise, BlockError.code, BlockError.flags, statusWord_of_no_flags]

end Sys2Proof.Machine
end

section
/-! PROOFS. The whole machine (10_state.md rule R28, 20_memory.md rule R59): which command can leave each flag, and what the
results of a command depend on. -/

namespace Sys2Proof.Machine

/-! ## The flags of each command's output -/

/-- R28, the set-by column: what a command must be, and must have found, to deliver an output with each flag. -/
structure FlagsAllowed (s : State) (i : Instr) (o : Output) : Prop where
  trunc : o.flags.trunc = true → i = .pack ∨ i = .i2cTx
  nodata : o.flags.nodata = true → (i = .deframe ∨ i = .i2cRx) ∧ s.ctrl.getLsbD 0 = true ∧ o.dout = []
  devstate : o.flags.devstate = true → (i = .shdlcCheck ∨ i = .shdlcRx) ∧ s.ports.es.getLsbD 7 = true
  dyn : o.flags.dyn = true → (i = .unpack ∨ i = .unpackDyn ∨ i = .i2cRx ∨ i = .shdlcRx) ∧ o.vout ≠ none

/-- An output without flags is allowed of every command. -/
theorem flagsAllowed_of_no_flags (s : State) (i : Instr) (o : Output) (h : o.flags = {}) : FlagsAllowed s i o := by
  constructor <;> rw [h] <;> exact nofun

theorem crccalcBody_flags (crc : Byte → Byte → Byte) (din : List Byte) (o : Output) (h : crccalcBody crc din = .ok o) :
    o.flags = {} := by
  unfold crccalcBody at h
  split at h <;> cases h
  rfl

theorem frameBody_flags (fn : Option (Byte → Byte → Byte)) (hlen : Byte) (din : List Byte) (o : Output)
    (h : frameBody fn hlen din = .ok o) : o.flags = {} := by
  cases hf : frameBytes fn hlen.toNat din with
  | error e => cases (frameBody_of_error fn hlen din e hf).symm.trans h
  | ok out =>
    cases (frameBody_of_ok fn hlen din out hf).symm.trans h
    rfl

theorem rxlenBody_flags (crcEn : Bool) (p : Ports) (o : Output) (h : rxlenBody crcEn p = .ok o) : o.flags = {} := by
  unfold rxlenBody at h
  split at h
  · cases h; rfl
  · split at h
    · cases h
    · split_ifs at h <;> cases h <;> rfl

theorem packBody_flags (p : Ports) (o : Output) (h : packBody p = .ok o) : ∃ b, o.flags = { trunc := b } := by
  cases hr : packRequest p with
  | error e => cases (packBody_of_error p e hr).symm.trans h
  | ok r =>
    cases (packBody_of_ok p r hr).symm.trans h
    exact ⟨r.trunc, rfl⟩

theorem i2cTxBody_flags (fn : Option (Byte → Byte → Byte)) (p : Ports) (o : Output) (h : i2cTxBody fn p = .ok o) :
    ∃ b, o.flags = { trunc := b } := by
  cases hr : packRequest p with
  | error e => cases (i2cTxBody_of_unpacked fn p e hr).symm.trans h
  | ok r =>
    cases hf : frameBytes fn r.width r.bytes with
    | error e => cases (i2cTxBody_of_unframed fn p r e hr hf).symm.trans h
    | ok out =>
      cases (i2cTxBody_of_framed fn p r out hr hf).symm.trans h
      exact ⟨r.trunc, rfl⟩

/-- R155: "no data" is said only with a checksum function, and of no bytes. -/
theorem deframeBytes_nodata (s : State) (bs data : List Byte)
    (h : deframeBytes s.checksumFn bs = .ok (data, true)) : s.ctrl.getLsbD 0 = true ∧ data = [] := by
  obtain ⟨-, run⟩ | ⟨-, -, -, run⟩ | ⟨-, e, -, -, -, run⟩ | ⟨crc, out, on, -, -, run⟩ := deframeBytes_cases s.checksumFn bs
  · cases run.symm.trans h
  · cases run.symm.trans h
  · cases run.symm.trans h
  · obtain ⟨rfl, empty⟩ := Prod.mk.inj (Except.ok.inj (run.symm.trans h))
    refine ⟨?_, List.isEmpty_iff.mp empty⟩
    rw [checksumFn_eq] at on
    by_contra off
    rw [if_neg off] at on
    cases on

theorem deframeBody_flags (s : State) (o : Output) (h : deframeBody s.checksumFn s.ports.din = .ok o) :
    FlagsAllowed s .deframe o := by
  cases hb : deframeBytes s.checksumFn s.ports.din with
  | error e => cases (deframeBody_of_error _ _ e hb).symm.trans h
  | ok r =>
    obtain ⟨data, nodata⟩ := r
    cases (deframeBody_of_ok _ _ data nodata hb).symm.trans h
    refine ⟨nofun, fun flag => ⟨.inl rfl, ?_⟩, nofun, nofun⟩
    obtain rfl : nodata = true := flag
    exact deframeBytes_nodata s _ data hb

/-- A decode sets no flag but DYN, and that one only with values. -/
theorem optDecode_flags (dyn : Descr → Bool) (d : Option Descr) (bs : List Byte) (o : Output)
    (h : optDecode dyn d bs = .ok o) : ∃ b, o.flags = { dyn := b } ∧ (b = true → o.vout ≠ none) := by
  cases d with
  | none =>
    cases h
    exact ⟨false, rfl, nofun⟩
  | some d =>
    obtain ⟨e, -, run⟩ | ⟨vs, -, run⟩ := decodeAs_cases (dyn d) d bs <;> cases run.symm.trans h
    exact ⟨dyn d, rfl, fun _ => nofun⟩

/-- A command that reads DESC as a response delivers an output only with a descriptor that can be read. -/
theorem exists_optDescr_of_body_ok (i : Instr) (s : State) (o : Output)
    (reads : i ∈ [Instr.rxlen, .unpack, .unpackDyn, .shdlcRx, .i2cRx]) (h : bodyOf s i = .ok o) :
    ∃ d, optDescr s.ports.desc = .ok d := by
  cases hd : optDescr s.ports.desc with
  | error e => cases (bodyOf_of_optDescr_error i s e reads hd).symm.trans h
  | ok d => exact ⟨d, rfl⟩

theorem i2cRxBody_flags (s : State) (o : Output) (h : i2cRxBody s.checksumFn s.ports = .ok o) :
    FlagsAllowed s .i2cRx o := by
  obtain ⟨d, hd⟩ := exists_optDescr_of_body_ok .i2cRx s o (by decide) h
  cases hb : deframeBytes s.checksumFn s.ports.din with
  | error e => cases (i2cRxBody_of_undeframed _ _ d e hd hb).symm.trans h
  | ok r =>
    obtain ⟨data, nodata⟩ := r
    have decode := (i2cRxBody_of_deframed _ _ d data nodata hd hb).symm.trans h
    cases nodata with
    | true =>
      cases (i2cDecode_of_nodata d data).symm.trans decode
      exact ⟨nofun, fun _ => ⟨.inr rfl, deframeBytes_nodata s _ data hb⟩, nofun, nofun⟩
    | false =>
      rw [i2cDecode_of_data] at decode
      cases hu : optDecode isVar d data with
      | error e =>
        rw [hu] at decode
        cases decode
      | ok o' =>
        rw [hu] at decode
        cases decode
        obtain ⟨b, flags, values⟩ := optDecode_flags isVar d data o' hu
        constructor <;> dsimp only <;> rw [flags]
        · exact nofun
        · exact nofun
        · exact nofun
        · exact fun dyn => ⟨.inr (.inr (.inl rfl)), values dyn⟩

theorem shdlcCheckBody_flags (s : State) (o : Output) (h : shdlcCheckBody s.ports = .ok o) :
    FlagsAllowed s .shdlcCheck o := by
  cases he : shdlcError s.ports with
  | some e => cases (shdlcCheckBody_of_error _ e he).symm.trans h
  | none =>
    cases (shdlcCheckBody_of_none _ he).symm.trans h
    exact ⟨nofun, nofun, fun flag => ⟨.inl rfl, flag⟩, nofun⟩

theorem shdlcRxBody_flags (s : State) (o : Output) (h : shdlcRxBody s.ports = .ok o) : FlagsAllowed s .shdlcRx o := by
  obtain ⟨d, hd⟩ := exists_optDescr_of_body_ok .shdlcRx s o (by decide) h
  cases he : shdlcError s.ports with
  | some e => cases (shdlcRxBody_of_error _ d e hd he).symm.trans h
  | none =>
    have decode := (shdlcRxBody_of_none _ d hd he).symm.trans h
    cases hu : optDecode (fun _ => true) d s.ports.din with
    | error e =>
      rw [hu] at decode
      cases decode
    | ok o' =>
      rw [hu] at decode
      cases decode
      refine ⟨nofun, nofun, fun flag => ⟨.inr rfl, flag⟩, fun dyn => ⟨.inr (.inr (.inr rfl)), ?_⟩⟩
      obtain ⟨vout, rfl⟩ := optDecode_dyn_ok d _ o' hu
      obtain ⟨b, flags, values⟩ := optDecode_flags _ d _ _ hu
      cases flags
      exact values dyn

/-- R28: what a command that delivers an output must be, and must have found, for each flag of it. -/
theorem flagsAllowed_of_body_ok (s : State) (i : Instr) (o : Output) (other : isRegAccess i = false)
    (h : bodyOf s i = .ok o) : FlagsAllowed s i o := by
  cases i with
  | crccalc => exact flagsAllowed_of_no_flags s _ o (crccalcBody_flags _ _ o h)
  | frame hlen => exact flagsAllowed_of_no_flags s _ o (frameBody_flags _ hlen _ o h)
  | deframe => exact deframeBody_flags s o h
  | rxlen => exact flagsAllowed_of_no_flags s _ o (rxlenBody_flags _ _ o h)
  | pack =>
    obtain ⟨b, flags⟩ := packBody_flags _ o h
    constructor <;> rw [flags]
    exacts [fun _ => .inl rfl, nofun, nofun, nofun]
  | unpack =>
    obtain ⟨d, hd⟩ := exists_optDescr_of_body_ok .unpack s o (by decide) h
    obtain ⟨b, flags, values⟩ := optDecode_flags _ d _ o ((unpackBody_eq_optDecode _ d hd).symm.trans h)
    constructor <;> rw [flags]
    exacts [nofun, nofun, nofun, fun dyn => ⟨.inl rfl, values dyn⟩]
  | unpackDyn =>
    obtain ⟨d, hd⟩ := exists_optDescr_of_body_ok .unpackDyn s o (by decide) h
    obtain ⟨b, flags, values⟩ := optDecode_flags _ d _ o ((unpackDynBody_eq_optDecode _ d hd).symm.trans h)
    constructor <;> rw [flags]
    exacts [nofun, nofun, nofun, fun dyn => ⟨.inr (.inl rfl), values dyn⟩]
  | shdlcCheck => exact shdlcCheckBody_flags s o h
  | shdlcRx => exact shdlcRxBody_flags s o h
  | i2cTx =>
    obtain ⟨b, flags⟩ := i2cTxBody_flags _ _ o h
    constructor <;> rw [flags]
    exacts [fun _ => .inr rfl, nofun, nofun, nofun]
  | i2cRx => exact i2cRxBody_flags s o h
  | rdreg addr => cases other
  | wrreg addr => cases other

/-! ## The flag of an error -/

theorem shdlcError_device (p : Ports) (status : Byte) (h : shdlcError p = some (.device status)) : status = p.es := by
  obtain ⟨-, run⟩ | ⟨-, -, run⟩ | ⟨-, -, -, run⟩ | ⟨-, -, -, run⟩ := shdlcError_cases p <;> cases run.symm.trans h
  rfl

/-- Only the SHDLC commands raise DEVICE, with the status byte they found (R245). -/
theorem raises_device (s : State) (i : Instr) (status : Byte) (h : Raises s i (.device status)) :
    (i = .shdlcCheck ∨ i = .shdlcRx) ∧ status = s.ports.es := by
  have code : (0x04 : Byte) ∈ raisableCodes i := raises_code s i _ h
  cases i with
  | shdlcCheck => exact ⟨.inl rfl, shdlcError_device _ _ ((shdlcCheckBody_error_iff _ _).mp h)⟩
  | shdlcRx =>
    refine ⟨.inr rfl, ?_⟩
    cases hd : optDescr s.ports.desc with
    | error e =>
      cases (bodyOf_of_optDescr_error .shdlcRx s e (by decide) hd).symm.trans h
      cases optDescr_error_code _ _ hd
    | ok d =>
      obtain check | code := shdlcRxBody_error_cases _ d _ hd h
      · exact shdlcError_device _ _ check
      · cases code
  | _ => simp [raisableCodes] at code

/-- Settles O57: an output's flags are those that its command may set, and an error leaves DEVSTATE at most. -/
theorem flagsSetByCommand : Obligations.FlagsSetByCommand := by
  intro i s t other h
  cases endsIn_of_exec i s t h with
  | delivers o _ body =>
    obtain ⟨trunc, nodata, devstate, dyn⟩ := flagsAllowed_of_body_ok s i o other body
    rw [succeed_status, statusTrunc_statusWord, statusNodata_statusWord, statusDevstate_statusWord, statusDyn_statusWord,
      statusErr_statusWord]
    refine ⟨trunc, nodata, devstate, fun flag => ?_⟩
    obtain ⟨command, values⟩ := dyn flag
    exact ⟨command, rfl, values⟩
  | fails e raises =>
    obtain ⟨trunc, nodata, dyn, -⟩ := error_flags e
    rw [raise_status, statusTrunc_statusWord, statusNodata_statusWord, statusDevstate_statusWord, statusDyn_statusWord, trunc,
      nodata, dyn]
    refine ⟨nofun, nofun, fun flag => ?_, nofun⟩
    cases e with
    | device status =>
      obtain ⟨command, rfl⟩ := raises_device s i status raises
      exact ⟨command, flag⟩
    | _ => cases flag
  | reads addr r rdreg mapped =>
    subst rdreg
    cases other
  | writes addr r wrreg mapped =>
    subst wrreg
    cases other

/-! ## What results depend on -/

/-- CTRL, CRC_CFG and the operand ports decide what a command's body comes to. -/
theorem bodyOf_congr (s s' : State) (i : Instr) (ctrl : s'.ctrl = s.ctrl) (crcCfg : s'.crcCfg = s.crcCfg)
    (ports : s'.ports = s.ports) : bodyOf s' i = bodyOf s i := by
  have crcFn : s'.crcFn = s.crcFn := by
    rw [State.crcFn, State.poly, State.init, State.xorOut, crcCfg]
    rfl
  have checksumFn : s'.checksumFn = s.checksumFn := by rw [checksumFn_eq, checksumFn_eq, ctrl, crcFn]
  have crcEn : s'.crcEn = s.crcEn := by rw [State.crcEn, State.crcEn, ctrl]
  cases i <;> simp only [bodyOf, crcFn, checksumFn, crcEn, ports]

theorem raises_congr (s s' : State) (i : Instr) (e : BlockError) (ctrl : s'.ctrl = s.ctrl) (crcCfg : s'.crcCfg = s.crcCfg)
    (ports : s'.ports = s.ports) : Raises s' i e ↔ Raises s i e := by
  cases i with
  | rdreg addr => exact Iff.rfl
  | wrreg addr => exact Iff.rfl
  | _ =>
    rw [raises_iff_body _ _ _ rfl, raises_iff_body _ _ _ rfl, bodyOf_congr s s' _ ctrl crcCfg ports]

/-- Settles O58: the body and the error are decided by the same registers and ports in both states. -/
theorem resultsIgnoreEarlierStatus : Obligations.ResultsIgnoreEarlierStatus := by
  intro i s s' t ctrl crcCfg ports notStatus notErrInfo h
  cases endsIn_of_exec i s t h with
  | delivers o other body =>
    have body' := (bodyOf_congr s s' i ctrl crcCfg ports).trans body
    exact ⟨s'.succeed o, exec_of_body_ok i s' o other body', rfl, rfl, rfl, ctrl, crcCfg, fun _ => ⟨rfl, rfl⟩⟩
  | fails e raises =>
    have raises' := (raises_congr s s' i e ctrl crcCfg ports).mpr raises
    refine ⟨s'.raise e, exec_of_raises i s' e raises', ?_, rfl, rfl, ctrl, crcCfg, fun _ => ⟨rfl, rfl⟩⟩
    rw [raise_dout, raise_dout, ports]
  | reads addr r rdreg mapped =>
    subst rdreg
    refine ⟨_, exec_rdreg_of_mapped addr r s' mapped, rfl, rfl, ?_, ctrl, crcCfg, fun other => by cases other⟩
    obtain ⟨rfl, hr⟩ | ⟨rfl, hr⟩ | ⟨rfl, hr⟩ | ⟨rfl, hr⟩ | ⟨-, hr⟩ := regAt_cases addr
    · cases hr.symm.trans mapped
      exact ctrl
    · cases hr.symm.trans mapped
      exact crcCfg
    · exact absurd rfl notStatus
    · exact absurd rfl notErrInfo
    · cases hr.symm.trans mapped
  | writes addr r wrreg mapped =>
    subst wrreg
    refine ⟨_, exec_wrreg_of_mapped addr r s' mapped, rfl, rfl, rfl, ?_, ?_, fun other => by cases other⟩
    · rw [respond_ctrl, respond_ctrl, writeReg_ctrl, writeReg_ctrl, ctrl, ports]
    · rw [respond_crcCfg, respond_crcCfg, writeReg_crcCfg, writeReg_crcCfg, crcCfg, ports]

/-- A register that is read or written keeps its value through a second write of the same value. -/
theorem writeReg_idem (s : State) (r : Reg) (v : Word) :
    (((s.writeReg r v).respond 0).writeReg r v).ctrl = (s.writeReg r v).ctrl ∧
      (((s.writeReg r v).respond 0).writeReg r v).crcCfg = (s.writeReg r v).crcCfg := by
  cases r <;> exact ⟨rfl, rfl⟩

/-- Settles O59: a command leaves the ports, and all but WRREG leave CTRL and CRC_CFG, so it ends again as it did. -/
theorem repeatedCommandSameResults : Obligations.RepeatedCommandSameResults := by
  intro i s t u first second
  cases endsIn_of_exec i s t first with
  | delivers o other body =>
    have body' := (bodyOf_congr s (s.succeed o) i rfl rfl rfl).trans body
    obtain rfl := eq_of_exec_body_ok other body' second
    exact ⟨rfl, rfl, rfl, rfl, rfl, rfl, rfl⟩
  | fails e raises =>
    have raises' := (raises_congr s (s.raise e) i e rfl rfl rfl).mpr raises
    obtain rfl := eq_of_exec_raises raises' second
    exact ⟨rfl, rfl, rfl, rfl, rfl, rfl, rfl⟩
  | reads addr r rdreg mapped =>
    subst rdreg
    obtain rfl := Host.Outcome.next.inj ((exec_rdreg_of_mapped addr r _ mapped).symm.trans second)
    refine ⟨rfl, rfl, ?_, rfl, rfl, rfl, rfl⟩
    cases r <;> rfl
  | writes addr r wrreg mapped =>
    subst wrreg
    obtain rfl := Host.Outcome.next.inj ((exec_wrreg_of_mapped addr r _ mapped).symm.trans second)
    rw [respond_ports, writeReg_ports]
    obtain ⟨ctrl, crcCfg⟩ := writeReg_idem s r s.ports.wdata
    exact ⟨rfl, rfl, rfl, writeReg_status _ r _, writeReg_errInfo _ r _, ctrl, crcCfg⟩

end Sys2Proof.Machine
end
